-- ==== Sys2Proof/Word.lean ====
section
/-! DEFINITION. The words of the block: bytes (00_scope.md R6), nibbles and the 12-bit identifier (R9). -/

namespace Sys2Proof

/-- A byte, 8 bits, bit 7 the most significant (R6). All quantities are unsigned. -/
abbrev Byte := BitVec 8

/-- A 4-bit field: the identifier's low part `id2` (R9). -/
abbrev Nibble := BitVec 4

/-- A 12-bit bus identifier (R9, R57). -/
abbrev Ident := BitVec 12

end Sys2Proof
end

