-- ==== Sys2Proof/Syntax.lean ====
section
/-! DEFINITION. The operations of the block: one constructor per row of spec/opcode_table.json (30_encoding.md R56). -/

namespace Sys2Proof

/-- The closed set of 15 operations (R1, R56). The count or length operand of an operation with a payload is the
length of its list (R55, R60). `i1` is identifier bits 11:4 and `i2` bits 3:0 (R57). -/
inductive Instr where
  /-- `WRREG a, v` (R72). -/
  | wrreg (a v : Byte)
  /-- `WRBLK a, [d..]` (R73). -/
  | wrblk (a : Byte) (d : List Byte)
  /-- `RDREG a` (R74). -/
  | rdreg (a : Byte)
  /-- `RDBLK a, n` (R75). -/
  | rdblk (a n : Byte)
  /-- `CHDIS ch` (R110). -/
  | chdis (ch : Byte)
  /-- `CHTX ch, id, rak, [d..]` (R111). -/
  | chtx (ch i1 : Byte) (i2 : Nibble) (rak : Bool) (d : List Byte)
  /-- `CHRX ch, id, len` (R112). -/
  | chrx (ch i1 : Byte) (i2 : Nibble) (len : Byte)
  /-- `CHRRN ch, id, len` (R113). -/
  | chrrn (ch i1 : Byte) (i2 : Nibble) (len : Byte)
  /-- `CHRR ch, id, len` (R114). -/
  | chrr (ch i1 : Byte) (i2 : Nibble) (len : Byte)
  /-- `CHIR ch, id, [d..]` (R115). -/
  | chir (ch i1 : Byte) (i2 : Nibble) (d : List Byte)
  /-- `CHDR ch, id, [d..]` (R116). -/
  | chdr (ch i1 : Byte) (i2 : Nibble) (d : List Byte)
  /-- `CHRRD ch, id, len` (R117). -/
  | chrrd (ch i1 : Byte) (i2 : Nibble) (len : Byte)
  /-- `RDMSG ch` (R131). -/
  | rdmsg (ch : Byte)
  /-- `LASTCH` (R132). -/
  | lastch
  /-- `RDERR` (R140). -/
  | rderr
deriving DecidableEq, Repr

end Sys2Proof
end

