-- ==== Sys2Proof/WellFormed.lean ====
section
/-! DEFINITION. Which terms of `Instr` a descriptor can spell: the payload's length must fit the one-byte count or
length operand (30_encoding.md R56, R57; `COUNT_W` = 8, 92 D9). Every other operand is bounded by its type. -/

namespace Sys2Proof

/-- The payload an operation carries, if any (R56 formats P1, PB, M2, M3; WRREG's one byte is an operand). -/
def Instr.payload : Instr → List Byte
  | .wrreg _ _ => []
  | .wrblk _ d => d
  | .rdreg _ => []
  | .rdblk _ _ => []
  | .chdis _ => []
  | .chtx _ _ _ _ d => d
  | .chrx _ _ _ _ => []
  | .chrrn _ _ _ _ => []
  | .chrr _ _ _ _ => []
  | .chir _ _ _ d => d
  | .chdr _ _ _ d => d
  | .chrrd _ _ _ _ => []
  | .rdmsg _ => []
  | .lastch => []
  | .rderr => []

/-- The payload's length is a count of 0 to 255 (R54, R59). -/
def Instr.wf (i : Instr) : Bool := decide (i.payload.length ≤ 255)

end Sys2Proof
end

