-- ==== Sys2Proof/Decode.lean ====
section
/-! DEFINITION. Host descriptors (30_encoding.md R55 to R59): the decoder, total on byte strings, which rejects by
name, and the encoder. -/

namespace Sys2Proof

/-! ## Operation codes and formats (R56) -/

/-- The 15 operations by name, without operands. -/
inductive Opcode where
  | wrreg | wrblk | rdreg | rdblk
  | chdis | chtx | chrx | chrrn | chrr | chir | chdr | chrrd
  | rdmsg | lastch | rderr
deriving DecidableEq, Repr

/-- The operation code, byte 0 of the descriptor (R56). -/
def Opcode.code : Opcode → Byte
  | .wrreg => 0x01
  | .wrblk => 0x02
  | .rdreg => 0x03
  | .rdblk => 0x04
  | .chdis => 0x10
  | .chtx => 0x11
  | .chrx => 0x12
  | .chrrn => 0x13
  | .chrr => 0x14
  | .chir => 0x15
  | .chdr => 0x16
  | .chrrd => 0x17
  | .rdmsg => 0x20
  | .lastch => 0x21
  | .rderr => 0x30

/-- The operation a code names; the other 241 codes are reserved (R58). -/
def Opcode.ofCode (b : Byte) : Option Opcode :=
  match b.toNat with
  | 0x01 => some .wrreg
  | 0x02 => some .wrblk
  | 0x03 => some .rdreg
  | 0x04 => some .rdblk
  | 0x10 => some .chdis
  | 0x11 => some .chtx
  | 0x12 => some .chrx
  | 0x13 => some .chrrn
  | 0x14 => some .chrr
  | 0x15 => some .chir
  | 0x16 => some .chdr
  | 0x17 => some .chrrd
  | 0x20 => some .rdmsg
  | 0x21 => some .lastch
  | 0x30 => some .rderr
  | _ => none

/-- The descriptor formats of R56 and R59. -/
inductive Format where
  | p1 | pb | p2 | p3 | m0 | m1 | m2 | m3 | z
deriving DecidableEq, Repr

/-- The format of each operation (R56). -/
def Opcode.format : Opcode → Format
  | .wrreg => .p1
  | .wrblk => .pb
  | .rdreg => .p2
  | .rdblk => .p3
  | .chdis => .m0
  | .chtx => .m3
  | .chrx => .m1
  | .chrrn => .m1
  | .chrr => .m1
  | .chir => .m2
  | .chdr => .m2
  | .chrrd => .m1
  | .rdmsg => .m0
  | .lastch => .z
  | .rderr => .z

/-- The length of a descriptor in bytes, its byte `k` given by `byte k` (R59): formats PB, M2 and M3 count their
payload in one operand byte. -/
def Format.length (f : Format) (byte : Nat → Byte) : Nat :=
  match f with
  | .p1 => 3
  | .pb => 3 + (byte 2).toNat
  | .p2 => 2
  | .p3 => 3
  | .m0 => 2
  | .m1 => 5
  | .m2 => 5 + (byte 4).toNat
  | .m3 => 6 + (byte 4).toNat
  | .z => 1

/-! ## Decoding (R55, R57, R58) -/

/-- Why a descriptor spells no operation (R58). The block records none of this: every rejection has the one effect
`CSTAT <- REJECTED`. -/
inductive Rejection where
  /-- There is no `op` byte (95 TR30). -/
  | empty
  /-- The `op` byte is not one of the 15 codes. -/
  | reservedOp
  /-- Shorter or longer than the format requires. -/
  | wrongLength
  /-- `i2[7:4] != 0`. -/
  | reservedI2
  /-- `rak[7:1] != 0`. -/
  | reservedRak
deriving DecidableEq, Repr

/-- Operand byte `i2`: bits 7:4 must be 0, bits 3:0 are the identifier's (R56, R58). -/
def readI2 (b : Byte) : Except Rejection Nibble :=
  if b.extractLsb' 4 4 = 0 then .ok (b.extractLsb' 0 4) else .error .reservedI2

/-- Operand byte `rak`: bits 7:1 must be 0, bit 0 is RAK (R57(c), R58). -/
def readRak (b : Byte) : Except Rejection Bool :=
  if b.extractLsb' 1 7 = 0 then .ok (b.getLsbD 0) else .error .reservedRak

/-- A payload must have exactly as many bytes as its count or length operand says (R55). -/
def readPayload (n : Byte) (d : List Byte) : Except Rejection (List Byte) :=
  if d.length = n.toNat then .ok d else .error .wrongLength

/-- The operands of a format P2 or M0 descriptor: one byte. -/
def readOne : List Byte → Except Rejection Byte
  | [x] => .ok x
  | _ => .error .wrongLength

/-- The operands of a format P1 or P3 descriptor: two bytes. -/
def readTwo : List Byte → Except Rejection (Byte × Byte)
  | [x, y] => .ok (x, y)
  | _ => .error .wrongLength

/-- The operands of a format PB descriptor, `a n d..`: the address and the payload. -/
def readPB : List Byte → Except Rejection (Byte × List Byte)
  | a :: n :: d => (readPayload n d).map fun d => (a, d)
  | _ => .error .wrongLength

/-- The operands of a format M1 descriptor, `ch i1 i2 len`. -/
def readM1 : List Byte → Except Rejection (Byte × Byte × Nibble × Byte)
  | [ch, i1, i2, len] => (readI2 i2).map fun i2 => (ch, i1, i2, len)
  | _ => .error .wrongLength

/-- The operands of a format M2 descriptor, `ch i1 i2 len d..`. -/
def readM2 : List Byte → Except Rejection (Byte × Byte × Nibble × List Byte)
  | ch :: i1 :: i2 :: len :: d =>
    match readPayload len d, readI2 i2 with
    | .ok d, .ok i2 => .ok (ch, i1, i2, d)
    | .error e, _ => .error e
    | _, .error e => .error e
  | _ => .error .wrongLength

/-- The operands of a format M3 descriptor, `ch i1 i2 len rak d..`. -/
def readM3 : List Byte → Except Rejection (Byte × Byte × Nibble × Bool × List Byte)
  | ch :: i1 :: i2 :: len :: rak :: d =>
    match readPayload len d, readI2 i2, readRak rak with
    | .ok d, .ok i2, .ok rak => .ok (ch, i1, i2, rak, d)
    | .error e, _, _ => .error e
    | _, .error e, _ => .error e
    | _, _, .error e => .error e
  | _ => .error .wrongLength

/-- A format Z descriptor has no operands. -/
def readNone : List Byte → Except Rejection Unit
  | [] => .ok ()
  | _ => .error .wrongLength

/-- The operands of one operation, from the bytes after `op` (R56, R57). -/
def decodeOperands (o : Opcode) (bs : List Byte) : Except Rejection Instr :=
  match o with
  | .wrreg => (readTwo bs).map fun x => .wrreg x.1 x.2
  | .wrblk => (readPB bs).map fun x => .wrblk x.1 x.2
  | .rdreg => (readOne bs).map .rdreg
  | .rdblk => (readTwo bs).map fun x => .rdblk x.1 x.2
  | .chdis => (readOne bs).map .chdis
  | .chtx => (readM3 bs).map fun (ch, i1, i2, rak, d) => .chtx ch i1 i2 rak d
  | .chrx => (readM1 bs).map fun (ch, i1, i2, len) => .chrx ch i1 i2 len
  | .chrrn => (readM1 bs).map fun (ch, i1, i2, len) => .chrrn ch i1 i2 len
  | .chrr => (readM1 bs).map fun (ch, i1, i2, len) => .chrr ch i1 i2 len
  | .chir => (readM2 bs).map fun (ch, i1, i2, d) => .chir ch i1 i2 d
  | .chdr => (readM2 bs).map fun (ch, i1, i2, d) => .chdr ch i1 i2 d
  | .chrrd => (readM1 bs).map fun (ch, i1, i2, len) => .chrrd ch i1 i2 len
  | .rdmsg => (readOne bs).map .rdmsg
  | .lastch => (readNone bs).map fun _ => .lastch
  | .rderr => (readNone bs).map fun _ => .rderr

/-- The decoder: total on byte strings (R58). -/
def decode : List Byte → Except Rejection Instr
  | [] => .error .empty
  | op :: bs =>
    match Opcode.ofCode op with
    | some o => decodeOperands o bs
    | none => .error .reservedOp

/-! ## Encoding (R56) -/

/-- The operation an `Instr` is. -/
def Instr.opcode : Instr → Opcode
  | .wrreg _ _ => .wrreg
  | .wrblk _ _ => .wrblk
  | .rdreg _ => .rdreg
  | .rdblk _ _ => .rdblk
  | .chdis _ => .chdis
  | .chtx _ _ _ _ _ => .chtx
  | .chrx _ _ _ _ => .chrx
  | .chrrn _ _ _ _ => .chrrn
  | .chrr _ _ _ _ => .chrr
  | .chir _ _ _ _ => .chir
  | .chdr _ _ _ _ => .chdr
  | .chrrd _ _ _ _ => .chrrd
  | .rdmsg _ => .rdmsg
  | .lastch => .lastch
  | .rderr => .rderr

/-- The count or length byte of a payload; exact for a well-formed operation. -/
def countByte (d : List Byte) : Byte := BitVec.ofNat 8 d.length

/-- Operand byte `i2 = 0000 ‖ id[3:0]` (R56). -/
def i2Byte (i2 : Nibble) : Byte := i2.setWidth 8

/-- Operand byte `rak = 0000000 ‖ RAK` (R56). -/
def rakByte (rak : Bool) : Byte := if rak then 1 else 0

/-- The operand bytes, in the fixed order of R56. -/
def Instr.operandBytes : Instr → List Byte
  | .wrreg a v => [a, v]
  | .wrblk a d => a :: countByte d :: d
  | .rdreg a => [a]
  | .rdblk a n => [a, n]
  | .chdis ch => [ch]
  | .chtx ch i1 i2 rak d => ch :: i1 :: i2Byte i2 :: countByte d :: rakByte rak :: d
  | .chrx ch i1 i2 len => [ch, i1, i2Byte i2, len]
  | .chrrn ch i1 i2 len => [ch, i1, i2Byte i2, len]
  | .chrr ch i1 i2 len => [ch, i1, i2Byte i2, len]
  | .chir ch i1 i2 d => ch :: i1 :: i2Byte i2 :: countByte d :: d
  | .chdr ch i1 i2 d => ch :: i1 :: i2Byte i2 :: countByte d :: d
  | .chrrd ch i1 i2 len => [ch, i1, i2Byte i2, len]
  | .rdmsg ch => [ch]
  | .lastch => []
  | .rderr => []

/-- The descriptor of an operation (R55, R56). -/
def encode (i : Instr) : List Byte := i.opcode.code :: i.operandBytes

/-! ## Words numbered as spec/opcode_table.json numbers them -/

/-- Byte `k` of a word: descriptor byte `k` is bits `8k+7 .. 8k`. -/
def wordByte (w k : Nat) : Byte := BitVec.ofNat 8 (w / 2 ^ (8 * k))

/-- The descriptor a table word stands for: its own whole bytes, and zeros above them up to the length its format
requires (R59). -/
def tableDescriptor (nbits w : Nat) : List Byte :=
  let own := (nbits + 7) / 8
  let given (k : Nat) : Byte := if k < own then wordByte w k else 0
  let need :=
    match Opcode.ofCode (given 0) with
    | some o => o.format.length given
    | none => own
  (List.range (max own need)).map given

/-- What the decoder reads from a table word (the host's question). -/
def decodeTableWord (nbits w : Nat) : Option Instr :=
  match decode (tableDescriptor nbits w) with
  | .ok i => some i
  | .error _ => none

end Sys2Proof
end

