-- ==== Sys2Proof/Config.lean ====
section
/-! DEFINITION. What an implementation of the block fixes (the parameters of 00_scope.md R5) and the free values.
The values of the reference configuration stand in Machine/Constants.lean. -/

namespace Sys2Proof

/-- The parameters of 00_scope.md R5 whose value the source does not give. A machine carries them in `State.cfg`,
so that every statement about every state holds for every value of them (log 1). `COUNT_W` is fixed at 8 (log 7). -/
structure Params where
  /-- `ADDR_ACK`: the byte the target must return for the address phase (R53). -/
  addrAck : Byte
  /-- `CMD_ACK`: the byte the target must return for the control phase (R53). -/
  cmdAck : Byte
  /-- `CMD_WRITE`: the control byte that selects a write (R52). -/
  cmdWrite : Byte
  /-- `CMD_READ`: the control byte that selects a read (R52). -/
  cmdRead : Byte
  /-- `CH_BASE`: the address of channel 0's block (R90). -/
  chBase : Byte
  /-- `A_LINECTL`: the line control register (R93). -/
  aLinectl : Byte
  /-- `A_TXCTL`: the transmit control register (R93). -/
  aTxctl : Byte
  /-- `A_CMDREG`: the command register (R93). -/
  aCmdreg : Byte
  /-- `A_LASTMSG`: the last-message-status register (R93, R132). -/
  aLastmsg : Byte
  /-- `A_INTEN`: the interrupt enable register (R93). -/
  aInten : Byte
  /-- `A_INTRST`: the interrupt reset register (R93). -/
  aIntrst : Byte
  /-- `OFF_IDTAG`: offset of the identifier tag (R92). -/
  offIdtag : Byte
  /-- `OFF_IDCMD`: offset of the identifier + command byte (R92). -/
  offIdcmd : Byte
  /-- `OFF_MPTR`: offset of the message pointer (R92). -/
  offMptr : Byte
  /-- `OFF_LSTA`: offset of the length + status byte (R92). -/
  offLsta : Byte
  /-- `OFF_MASK0`: offset of the first identifier-mask byte (R92). -/
  offMask0 : Byte
  /-- `OFF_MASK1`: offset of the second identifier-mask byte (R92). -/
  offMask1 : Byte
  /-- `LASTCH_LSB`: least significant bit of the channel-index field of the last-message-status register (R67). -/
  lastchLsb : Nat
  /-- `T_SEL`: milliseconds of the slot after `Select()` (R71). -/
  tSel : Nat
  /-- `T_ADDR`: milliseconds of the slot after the address exchange (R71). -/
  tAddr : Nat
  /-- `T_CMD`: milliseconds of the slot after the control exchange (R71). -/
  tCmd : Nat
  /-- `T_DATA`: milliseconds of the slot after each payload exchange (R71). -/
  tData : Nat
  /-- `T_DESEL`: milliseconds of the slot after `Deselect()` (R71). -/
  tDesel : Nat
  /-- `ERRCNT_W`: width of the error counter in bits (R14). -/
  errcntW : Nat
  /-- `BRINGUP`: the (address, value) writes the caller issues at bring-up (R173). -/
  bringup : List (Byte × Byte)
deriving DecidableEq, Repr

/-- The constraints the spec puts on the parameters: `CMD_WRITE != CMD_READ` (R52), `CH_BASE + 63 < 0x80` (R31),
`LASTCH_LSB` in 0..5 (92 D20). That `ERRCNT_W` is a whole number of bytes that RBUF can hold is the model's
(DESIGN CHOICE, log 6). -/
def Params.wf (p : Params) : Bool :=
  p.cmdWrite != p.cmdRead && decide (p.chBase.toNat + 63 < 0x80) && decide (p.lastchLsb ≤ 5)
    && decide (p.errcntW % 8 = 0) && decide (8 ≤ p.errcntW) && decide (p.errcntW / 8 ≤ 255)

/-- FREE VALUE. The byte the Transport returns in the `k`-th exchange where the environment's list of answers names
none: "The returned byte `r` is a free input: the block assumes nothing about it" (R17; log 2). -/
opaque Config.freeReturn : Nat → Byte

/-- FREE VALUE. What RBUF holds at index `i` at or above RLEN, in the `epoch`-th content of RBUF: "unspecified after
an operation that writes `RBUF`" (R16, 93 U9; log 9). -/
opaque Config.freeResult : Nat → Nat → Byte

/-- FREE VALUE. What the host reads in RBUF at index `i` while BUSY = 1, after the `k`-th exchange: RBUF is "meaningful
only when `BUSY = 0`" (R21; log 10). -/
opaque Config.busyResult : Nat → Nat → Byte

/-- FREE VALUE. What the host reads in RLEN while BUSY = 1, after the `k`-th exchange (R21; log 10). -/
opaque Config.busyLength : Nat → Byte

end Sys2Proof
end

