-- ==== Sys2Proof/Machine/Constants.lean ====
section
/-! DEFINITION. The constants the source gives, the bit positions the spec adopts (30_encoding.md R62 to R65, 92 D13)
and the reference configuration (00_scope.md R5). -/

namespace Sys2Proof.Machine

/-! ## Constants the source gives (R5) -/

/-- `FILLER`: the byte sent to clock a read byte in. -/
def filler : Byte := 0xFF

/-- `NCH`: the number of channels. -/
def nch : Nat := 8

/-- `CH_STRIDE`: bytes per channel register block. -/
def chStride : Byte := 8

/-- `MB_BASE`: the address of mailbox offset 0. -/
def mbBase : Byte := 0x80

/-- `MB_SIZE`: the size of the mailbox in bytes; its offsets are 0 .. 127 (R5, R31, R91). The block computes with no bound on an
offset (R37), so this enters only what is said of the domain. -/
def mbSize : Nat := 128

/-- `RX_SPACING`: the per-channel receive-buffer spacing. -/
def rxSpacing : Byte := 30

/-- `TX_TOP`: the constant of the Transmit pointer formula. -/
def txTop : Byte := 127

/-- The number of elements of DBUF and of RBUF: indices 0 .. 254 (R11, R16). -/
def bufferSize : Nat := 255

/-! ## Bit positions of the packed bytes (92 D13: the spec's own choice) -/

/-- `IDCMD[7:4] = id2` (R62). -/
def idcmdId2Shift : Nat := 4
/-- `IDCMD[3] = EXT` (R62). -/
def idcmdExtBit : Nat := 3
/-- `IDCMD[2] = RAK` (R62). -/
def idcmdRakBit : Nat := 2
/-- `IDCMD[1] = RNW` (R62). -/
def idcmdRnwBit : Nat := 1
/-- `IDCMD[0] = RTR` (R62). -/
def idcmdRtrBit : Nat := 0
/-- `MPTR[7] = DRAK` (R63). -/
def mptrDrakBit : Nat := 7
/-- `MPTR[6:0] = M_P` (R63): the mask of the pointer field. -/
def mptrPointerMask : Byte := 0x7F
/-- `LSTA[7:3] = M_L` (R64). -/
def lstaMlShift : Nat := 3
/-- `LSTA[2] = CHER` (R64). -/
def lstaCherBit : Nat := 2
/-- `LSTA[1] = CHTx` (R64). -/
def lstaChtxBit : Nat := 1
/-- `LSTA[0] = CHRx` (R64). -/
def lstaChrxBit : Nat := 0
/-- The mask of a 5-bit field at the low end: `M_L` before its shift (R64), `STA[4:0]` (R65). -/
def lengthMask : Byte := 0x1F
/-- `STA[7:5]` = command sub-field (R65). -/
def staCommandShift : Nat := 5
/-- The mask of the 3-bit channel index before its shift (R67). -/
def channelMask : Byte := 0x07

/-! ## The reference configuration (R5) -/

/-- The "reference value" column of R5, which the vectors of 95_test_vectors.md use. Its numbers are "from general
knowledge, not in source" or open decisions (93 part 2): nothing but `State.reset` and the tests uses them (log 1). -/
def referenceParams : Params where
  addrAck := 0xAA
  cmdAck := 0x55
  cmdWrite := 0xE0
  cmdRead := 0x60
  chBase := 0x10
  aLinectl := 0x00
  aTxctl := 0x01
  aCmdreg := 0x03
  aLastmsg := 0x06
  aInten := 0x0A
  aIntrst := 0x0B
  offIdtag := 0
  offIdcmd := 1
  offMptr := 2
  offLsta := 3
  offMask0 := 6
  offMask1 := 7
  lastchLsb := 0
  tSel := 0
  tAddr := 0
  tCmd := 0
  tData := 0
  tDesel := 0
  errcntW := 32
  bringup := []

end Sys2Proof.Machine
end

