-- ==== Sys2Proof/Machine/State.lean ====
section
/-! DEFINITION. The state of the block (10_state.md R10 to R16), the history and the environment a model keeps beside it
(R17 to R21), and the state after reset (R22). Plain data throughout. -/

namespace Sys2Proof.Machine

/-- A buffer of the block, DBUF or RBUF: cells (index, byte), in the canonical form of `Memory.wf`. -/
abbrev Memory := List Host.Cell

/-- What an index of a stored buffer reads as where no cell lists it (DESIGN CHOICE, unsafe; log 12). -/
def Memory.unlisted : Byte := 0

/-- The canonical form: indices strictly rising, each one of 0 .. 254, no cell equal to what an unlisted index
reads as. -/
def Memory.wf (m : Memory) : Bool :=
  decide (m.Pairwise fun x y => x.1 < y.1) && m.all fun x => decide (x.1 < bufferSize) && x.2 != Memory.unlisted

/-- The phases of one transaction, and `idle` (R12). `wX` is the delay slot after phase `X` (R71). -/
inductive Phase where
  | idle | select | wSel | addr | wAddr | cmd | wCmd | data | wData | deselect | wDesel
deriving DecidableEq, Repr

/-- `CSTAT` (R13): whether the last descriptor presented spelled an operation. -/
inductive CommandStatus where
  | ok | rejected
deriving DecidableEq, Repr

/-- The events of the link trace (R7, R18). -/
inductive LinkEvent where
  /-- `SEL`. -/
  | sel
  /-- `X(t, r)`: byte `t` sent and byte `r` returned in one exchange. -/
  | x (t r : Byte)
  /-- `DLY(n)`: a delay of `n` milliseconds. -/
  | dly (n : Nat)
  /-- `DESEL`. -/
  | desel
deriving DecidableEq, Repr

/-- What the host and the Transport do to the block between steps (R17, R21, R22). -/
inductive Input where
  /-- The host presents a descriptor. -/
  | present (d : List Byte)
  /-- The host asserts reset. -/
  | reset
  /-- The Transport from now on completes `c` more exchanges and delays and then holds the block (`none`: completes
  every one). -/
  | transport (c : Option Nat)
deriving DecidableEq, Repr

/-- The Transport as the block meets it: an oracle (R17, R19; log 2, log 4). -/
structure Transport where
  /-- The bytes the exchanges to come return, the next one first; past its end the byte is `Config.freeReturn`. -/
  answers : List Byte
  /-- How many exchanges have completed: the argument of `Config.freeReturn`. -/
  exchanges : Nat
  /-- How many more exchanges and delays complete before the block is held; `none`: all of them, the premise
  of R179. -/
  credit : Option Nat
deriving DecidableEq, Repr

/-- Every piece of state the spec gives the block, the history it asks a model to keep, and the environment. -/
@[ext]
structure State where
  /-- `OP`: the operation code (R11). -/
  op : Byte
  /-- `A`: the target address of the current transaction (R11). -/
  a : Byte
  /-- `C`: the control byte of the current transaction (R11). -/
  c : Byte
  /-- `N`: the payload count of the current transaction (R11). -/
  n : Byte
  /-- `I`: the index of the next payload byte, 0 to `N` (R11, R12). -/
  i : Byte
  /-- `DBUF[0 .. 254]`: bytes to write (R11). -/
  dbuf : Memory
  /-- `CH`: the channel index as given (R11). -/
  ch : Byte
  /-- `ID1`: identifier bits 11:4 (R11). -/
  id1 : Byte
  /-- `ID2`: identifier bits 3:0 (R11). -/
  id2 : Nibble
  /-- `LEN`: the payload length as given (R11). -/
  len : Byte
  /-- `RAKL`: the caller's acknowledgement requirement (R11). -/
  rakl : Bool
  /-- `PTR`: the computed message pointer, the full 8-bit value (R11, R105). -/
  ptr : Byte
  /-- `B_IDCMD`: the packed identifier + command byte (R11). -/
  bIdcmd : Byte
  /-- `B_MPTR`: the packed message pointer byte (R11). -/
  bMptr : Byte
  /-- `B_LSTA`: the packed length + status byte (R11). -/
  bLsta : Byte
  /-- `RX`: the byte most recently returned by the Transport (R11). -/
  rx : Byte
  /-- `MSTEP`: the index of the current transaction in its operation (R12). -/
  mstep : Nat
  /-- `PH`: the phase within the transaction (R12). -/
  ph : Phase
  /-- `BUSY` (R13). -/
  busy : Bool
  /-- `CSTAT` (R13). -/
  cstat : CommandStatus
  /-- `ERRCNT`: the error counter, below `2^ERRCNT_W` (R14; log 6). -/
  errcnt : Nat
  /-- `SELLINE`: inside a selection scope (R15). -/
  selline : Bool
  /-- `RBUF[0 .. RLEN-1]` as last delivered (R16). -/
  rbuf : Memory
  /-- `RLEN` (R16). -/
  rlen : Byte
  /-- `R[0 ..]` of the transaction in progress: the payload bytes read so far (R70; log 18). -/
  r : List Byte
  /-- `b0` of RDMSG: the identifier tag byte (R131; log 18). -/
  b0 : Byte
  /-- `b1` of RDMSG: the identifier + command byte (R131; log 18). -/
  b1 : Byte
  /-- `p` of RDMSG: the message pointer byte (R131; log 18). -/
  p : Byte
  /-- `s` of RDMSG: the mailbox status byte (R131; log 18). -/
  sta : Byte
  /-- The link trace, oldest event first: "a history kept by the model, not a register of the block" (R18). -/
  trace : List LinkEvent
  /-- Which free content RBUF has at and above RLEN: the model's own counter (93 U9; log 9). -/
  epoch : Nat
  /-- The Transport and the target behind it (R17, R19). -/
  transport : Transport
  /-- The moves of host and Transport to come, the next one first (R21). -/
  inputs : List Input
  /-- The parameters of R5: configuration, which no step changes (log 1). -/
  cfg : Params
deriving DecidableEq, Repr

/-- The block has no fault: "There is no other recognized error condition" (R154), a rejected descriptor is not an
exception (R156) and a hang is not a fault (R79, R157). No meaning and no step raises one (log 21). -/
inductive Fault where
deriving DecidableEq, Repr

/-- Why an operation has no meaning in the model. -/
inductive Refusal where
  /-- The operation is not modelled yet: raised only by an arm of `exec` that gives no meaning, and there is none
  left (safe). -/
  | notModelled (mnemonic : String)
deriving DecidableEq, Repr

/-- A block with parameters `p`, right after reset and with nothing presented: the values of R22; every latch R22
leaves "unspecified" is 0 (DESIGN CHOICE, unsafe; log 8). -/
def State.resetWith (p : Params) : State where
  op := 0
  a := 0
  c := 0
  n := 0
  i := 0
  dbuf := []
  ch := 0
  id1 := 0
  id2 := 0
  len := 0
  rakl := false
  ptr := 0
  bIdcmd := 0
  bMptr := 0
  bLsta := 0
  rx := 0
  mstep := 0
  ph := .idle
  busy := false
  cstat := .ok
  errcnt := 0
  selline := false
  rbuf := []
  rlen := 0
  r := []
  b0 := 0
  b1 := 0
  p := 0
  sta := 0
  trace := []
  epoch := 0
  transport := ⟨[], 0, none⟩
  inputs := []
  cfg := p

/-- The machine right after reset (R22, R170), in the reference configuration (R5; log 1). -/
def State.reset : State := State.resetWith referenceParams

end Sys2Proof.Machine
end

