-- ==== Sys2Proof/Machine/Ops.lean ====
section
/-! DEFINITION. The named operations over the state: the buffers, the four Transport actions (00_scope.md R7,
10_state.md R17), raising HandshakeMismatch (60_exceptions.md R151), delivering a result (R16) and reset (R22). -/

namespace Sys2Proof.Machine

/-! ## Buffers -/

/-- Element `a` of a stored buffer. -/
def Memory.read : Memory → Nat → Byte
  | [], _ => Memory.unlisted
  | (b, w) :: m, a => if a = b then w else Memory.read m a

/-- A buffer with element `a` set to `v`, in canonical form: the value an unlisted index reads as removes the cell. -/
def Memory.write : Memory → Nat → Byte → Memory
  | [], a, v => if v = Memory.unlisted then [] else [(a, v)]
  | (b, w) :: m, a, v =>
    if a < b then (if v = Memory.unlisted then (b, w) :: m else (a, v) :: (b, w) :: m)
    else if a = b then (if v = Memory.unlisted then m else (a, v) :: m)
    else (b, w) :: Memory.write m a v

/-- A buffer with the bytes `bs` stored from index `a` on. -/
def Memory.writeFrom : Memory → Nat → List Byte → Memory
  | m, _, [] => m
  | m, a, b :: bs => Memory.writeFrom (Memory.write m a b) (a + 1) bs

/-- `x[0 .. len(bs)-1] <- bs` (R8): only elements 0 .. 254 exist (R11, R16). -/
def Memory.load (m : Memory) (bs : List Byte) : Memory := Memory.writeFrom m 0 (bs.take bufferSize)

/-! ## The link (R7, R17, R18) -/

/-- Appends one event to the link trace (R18). -/
def State.record (s : State) (e : LinkEvent) : State := { s with trace := s.trace ++ [e] }

/-- `Select()`: the `SEL` event, and `SELLINE <- 1` (R15, R70). -/
def State.selectTarget (s : State) : State := { s.record .sel with selline := true }

/-- `Deselect()`: the `DESEL` event, and `SELLINE <- 0` (R15, R70). -/
def State.deselectTarget (s : State) : State := { s.record .desel with selline := false }

/-- The byte the next exchange returns: a free input of the block (R17). -/
def Transport.next (x : Transport) : Byte :=
  match x.answers with
  | r :: _ => r
  | [] => Config.freeReturn x.exchanges

/-- The Transport completes one exchange or delay. -/
def Transport.complete (x : Transport) : Transport := { x with credit := x.credit.map (· - 1) }

/-- The Transport completes one exchange: its answer is used up. -/
def Transport.completeExchange (x : Transport) : Transport :=
  { x.complete with answers := x.answers.tail, exchanges := x.exchanges + 1 }

/-- `RX <- Xchg(t)`, completed: byte `t` sent, one byte returned in the same exchange (R7, R17, R53). -/
def State.xchg (s : State) (t : Byte) : State :=
  { s.record (.x t s.transport.next) with rx := s.transport.next, transport := s.transport.completeExchange }

/-- `Delay(n)`, completed: "`Delay(0)` appends nothing" (R7, R71). -/
def State.delay (s : State) (n : Nat) : State :=
  if n = 0 then s else { s.record (.dly n) with transport := s.transport.complete }

/-! ## The one error (R150, R151) -/

/-- The two causes of HandshakeMismatch (R150). The block records neither. -/
inductive MismatchPhase where
  | address | control
deriving DecidableEq, Repr

/-- `raise HandshakeMismatch(phase)`: exactly `ERRCNT <- (ERRCNT + 1) mod 2^ERRCNT_W` (R8, R151). This is the block's
whole exception entry (R160); there is no return from it (R161). -/
def State.raiseHandshakeMismatch (s : State) (_phase : MismatchPhase) : State :=
  { s with errcnt := (s.errcnt + 1) % 2 ^ s.cfg.errcntW }

/-! ## Results (R16) -/

/-- `RBUF[0 ..] <- bs; RLEN <- len(bs)`: what RBUF holds above is unspecified from here on (R16, 93 U9). -/
def State.deliver (s : State) (bs : List Byte) : State :=
  { s with rbuf := Memory.load [] bs, rlen := BitVec.ofNat 8 bs.length, epoch := s.epoch + 1 }

/-- Element `i` of RBUF: as delivered below RLEN, a free value at and above it (R16, 93 U9; log 9). -/
def State.resultByte (s : State) (i : Nat) : Byte :=
  if i < s.rlen.toNat then s.rbuf.read i else Config.freeResult s.epoch i

/-! ## Reset (R22, R170 to R172) -/

/-- Reset, asserted at any time: the values of R22; no link event, SELLINE forced to 0, the frame abandoned. The
parameters, the target and Transport and the host's later moves are not the block's and stay (R171); RBUF's content is
unspecified anew (log 16). -/
def State.afterReset (s : State) : State :=
  { State.resetWith s.cfg with transport := s.transport, inputs := s.inputs, epoch := s.epoch + 1 }

end Sys2Proof.Machine
end

