-- ==== Sys2Proof/Machine/Operands.lean ====
section
/-! DEFINITION. Operand forms: identifiers (30_encoding.md R57), addresses (41_register_map.md R90 to R93), packed bytes
(30_encoding.md R62 to R67) and the mode table (42_channel_encoder.md R101). All are "Pure functions, no hardware
interaction" (R94). -/

namespace Sys2Proof.Machine

/-! ## Identifiers (R57) -/

/-- `i1 = ident[11:4]`. -/
def identHigh (ident : Ident) : Byte := ident.extractLsb' 4 8

/-- `i2 = ident[3:0]`. -/
def identLow (ident : Ident) : Nibble := ident.extractLsb' 0 4

/-- `ident = i1 ‖ i2[3:0]`. -/
def identJoin (i1 : Byte) (i2 : Nibble) : Ident := i1 ++ i2

/-! ## Addresses (R37, R90 to R93), all modulo 256 -/

/-- `CHADDR(c) = CH_BASE +8 (c *8 8)` (R90). -/
def chaddr (p : Params) (c : Byte) : Byte := p.chBase + c * chStride

/-- `MBADDR(off) = 0x80 +8 off` (R91). -/
def mbaddr (off : Byte) : Byte := mbBase + off

/-- The register at offset `k` of channel `c`: `CHADDR(c) +8 k` (R92). -/
def chreg (p : Params) (c k : Byte) : Byte := chaddr p c + k

/-- The six fixed registers the block knows by name (R93). -/
inductive FixedRegister where
  | linectl | txctl | inten | intrst | cmdreg | lastmsg
deriving DecidableEq, Repr

/-- The address of a fixed register: an open parameter (R93). -/
def fixedAddress (p : Params) : FixedRegister → Byte
  | .linectl => p.aLinectl
  | .txctl => p.aTxctl
  | .inten => p.aInten
  | .intrst => p.aIntrst
  | .cmdreg => p.aCmdreg
  | .lastmsg => p.aLastmsg

/-! ## Packed bytes (R62 to R67) -/

/-- A flag at bit `k` of a byte. -/
def flagAt (f : Bool) (k : Nat) : Byte := (if f then 1 else 0) <<< k

/-- `packIDCMD(id2, EXT, RAK, RNW, RTR) = id2[3:0] ‖ EXT ‖ RAK ‖ RNW ‖ RTR` (R62). -/
def packIDCMD (id2 : Nibble) (ext rak rnw rtr : Bool) : Byte :=
  (id2.setWidth 8 <<< idcmdId2Shift) ||| flagAt ext idcmdExtBit ||| flagAt rak idcmdRakBit
    ||| flagAt rnw idcmdRnwBit ||| flagAt rtr idcmdRtrBit

/-- Unpacking IDCMD: `id2` (R62: "Unpack is the inverse field extraction"). -/
def unpackId2 (b : Byte) : Nibble := (b >>> idcmdId2Shift).setWidth 4
/-- Unpacking IDCMD: `EXT` (R62). -/
def unpackExt (b : Byte) : Bool := b.getLsbD idcmdExtBit
/-- Unpacking IDCMD: `RAK` (R62). -/
def unpackRak (b : Byte) : Bool := b.getLsbD idcmdRakBit
/-- Unpacking IDCMD: `RNW` (R62). -/
def unpackRnw (b : Byte) : Bool := b.getLsbD idcmdRnwBit
/-- Unpacking IDCMD: `RTR` (R62). -/
def unpackRtr (b : Byte) : Bool := b.getLsbD idcmdRtrBit

/-- `packMPTR(DRAK, p) = DRAK ‖ p[6:0]`: only the low 7 bits of the pointer enter (R63, R105). -/
def packMPTR (drak : Bool) (p : Byte) : Byte := flagAt drak mptrDrakBit ||| (p &&& mptrPointerMask)

/-- Stripping DRAK: `MPTR[6:0]`, `MPTR & 0x7F` (R63). -/
def stripDrak (b : Byte) : Byte := b &&& mptrPointerMask
/-- Unpacking MPTR: `DRAK` (R63). -/
def unpackDrak (b : Byte) : Bool := b.getLsbD mptrDrakBit

/-- `packLSTA(m, CHER, CHTx, CHRx) = m[4:0] ‖ CHER ‖ CHTx ‖ CHRx` (R64). -/
def packLSTA (m : Byte) (cher chtx chrx : Bool) : Byte :=
  ((m &&& lengthMask) <<< lstaMlShift) ||| flagAt cher lstaCherBit ||| flagAt chtx lstaChtxBit
    ||| flagAt chrx lstaChrxBit

/-- `unpackML(LSTA) = LSTA[7:3]` (R64). -/
def unpackML (b : Byte) : Byte := b >>> lstaMlShift
/-- Unpacking LSTA: `CHER` (R64). -/
def unpackCher (b : Byte) : Bool := b.getLsbD lstaCherBit
/-- Unpacking LSTA: `CHTx` (R64). -/
def unpackChtx (b : Byte) : Bool := b.getLsbD lstaChtxBit
/-- Unpacking LSTA: `CHRx` (R64). -/
def unpackChrx (b : Byte) : Bool := b.getLsbD lstaChrxBit

/-- Mailbox status byte: `STA[4:0]`, the length (R65). -/
def statusLength (sta : Byte) : Byte := sta &&& lengthMask
/-- Mailbox status byte: `STA[7:5]`, the command sub-field, which no rule reads (R65). -/
def statusCommand (sta : Byte) : Byte := sta >>> staCommandShift

/-- Last-message-status byte: the 3-bit channel index, bits `LASTCH_LSB + 2` down to `LASTCH_LSB` (R67, R132). -/
def lastChannel (p : Params) (v : Byte) : Byte := (v >>> p.lastchLsb) &&& channelMask

/-- ERRCNT as RDERR delivers it: `ERRCNT_W / 8` bytes, the most significant first (R140). -/
def errcntBytes (p : Params) (errcnt : Nat) : List Byte :=
  let k := p.errcntW / 8
  (List.range k).map fun j => BitVec.ofNat 8 (errcnt / 2 ^ (8 * (k - j - 1)))

/-! ## The mode table (R100, R101) -/

/-- One row of R101: the flags of a mode, its pointer formula and whether it carries an outgoing payload. RAK is the
caller's for Transmit alone. -/
structure ModeRow where
  rnw : Bool
  rtr : Bool
  chtx : Bool
  chrx : Bool
  drak : Bool
  ext : Bool
  /-- RAK is operand `rak` (Transmit); otherwise it is 0. -/
  callerRak : Bool
  /-- `PTR = 127 - (L+1)` (Transmit); otherwise `c * 30`. -/
  topOfRam : Bool
  /-- An outgoing payload is staged first. -/
  staged : Bool
deriving DecidableEq, Repr

/-- The mode table of R101. Only the seven non-Disable rows go through Configure (R102); operations that configure no
channel have the all-zero row, which nothing reads. -/
def modeRow : Opcode → ModeRow
  | .chtx => ⟨false, false, false, false, false, true, true, true, true⟩
  | .chrx => ⟨false, true, false, false, true, true, false, false, false⟩
  | .chrrn => ⟨true, true, false, false, true, true, false, false, false⟩
  | .chrr => ⟨true, true, false, false, true, true, false, false, false⟩
  | .chir => ⟨true, false, false, false, false, true, false, false, true⟩
  | .chdr => ⟨true, false, false, true, true, true, false, false, true⟩
  | .chrrd => ⟨true, false, true, false, true, true, false, false, false⟩
  | .chdis => ⟨false, false, false, false, false, false, false, false, false⟩
  | .wrreg => ⟨false, false, false, false, false, false, false, false, false⟩
  | .wrblk => ⟨false, false, false, false, false, false, false, false, false⟩
  | .rdreg => ⟨false, false, false, false, false, false, false, false, false⟩
  | .rdblk => ⟨false, false, false, false, false, false, false, false, false⟩
  | .rdmsg => ⟨false, false, false, false, false, false, false, false, false⟩
  | .lastch => ⟨false, false, false, false, false, false, false, false, false⟩
  | .rderr => ⟨false, false, false, false, false, false, false, false, false⟩

/-- `ML <- L +8 1` (R102, R104). -/
def messageLength (len : Byte) : Byte := len + 1

/-- `PTR`: the full 8-bit message pointer of a mode (R102, R105). -/
def messagePointer (m : ModeRow) (ch len : Byte) : Byte :=
  if m.topOfRam then txTop - messageLength len else ch * rxSpacing

/-- `B_IDCMD` of a mode (R102, R107). -/
def modeIdcmd (m : ModeRow) (id2 : Nibble) (rakl : Bool) : Byte :=
  packIDCMD id2 m.ext (m.callerRak && rakl) m.rnw m.rtr

/-- `B_MPTR` of a mode (R102). -/
def modeMptr (m : ModeRow) (ptr : Byte) : Byte := packMPTR m.drak ptr

/-- `B_LSTA` of a mode: CHER is always written as 0 (R102, R108). -/
def modeLsta (m : ModeRow) (len : Byte) : Byte := packLSTA (messageLength len) false m.chtx m.chrx

end Sys2Proof.Machine
end

