-- ==== Sys2Proof/Machine/Flags.lean ====
section
/-! DEFINITION. Flags and checks: BUSY and CSTAT (10_state.md R13), the acknowledgement check (00_scope.md R8,
30_encoding.md R53) and whether the block is held (10_state.md R17). There are no condition codes (R13). -/

namespace Sys2Proof.Machine

/-- `Check(r, K, p)`: if the byte just returned differs from `K` then HandshakeMismatch, all 8 bits compared; the path is
the same either way (R8, R53, R76, R150). -/
def State.checkAck (s : State) (k : Byte) (phase : MismatchPhase) : State :=
  if s.rx = k then s else s.raiseHandshakeMismatch phase

/-- A descriptor that spells an operation is accepted: `CSTAT <- OK`, `BUSY <- 1`, `OP` loaded, the sequencer at
its start (R11, R12, R13, R55). -/
def State.accept (s : State) (o : Opcode) : State :=
  { s with cstat := .ok, busy := true, op := o.code, mstep := 0, ph := .idle, i := 0 }

/-- A descriptor that spells no operation: `CSTAT <- REJECTED` and no other effect (R58, R156). -/
def State.reject (s : State) : State := { s with cstat := .rejected }

/-- The operation OP names. -/
def State.opcode (s : State) : Option Opcode := Opcode.ofCode s.op

/-- Whether the current phase waits for the Transport: at each exchange, and at each delay whose duration is not 0; "These
two are the only places the block can be held" (R7, R17, R71, R79). -/
def State.awaitsTransport (s : State) : Bool :=
  match s.ph with
  | .addr | .cmd | .data => true
  | .wSel => s.cfg.tSel != 0
  | .wAddr => s.cfg.tAddr != 0
  | .wCmd => s.cfg.tCmd != 0
  | .wData => s.cfg.tData != 0
  | .wDesel => s.cfg.tDesel != 0
  | .idle | .select | .deselect => false

/-- The block is held: it waits for an exchange or a delay the Transport does not complete (R17, R79, R179). -/
def State.held (s : State) : Bool := s.busy && s.awaitsTransport && s.transport.credit == some 0

/-- An operation is in progress and not held. -/
def State.running (s : State) : Bool := s.busy && !(s.awaitsTransport && s.transport.credit == some 0)

end Sys2Proof.Machine
end

