-- ==== Sys2Proof/Machine/Sequencer.lean ====
section
/-! DEFINITION. The sequencer: the common transaction of 40_register_access.md R70 moved one phase at a time (10_state.md
R12), the frames of each operation (the pseudocode of files 40, 42, 43, 44), and running an operation until it ends
or the Transport holds it (R79). -/

namespace Sys2Proof.Machine

/-! ## The frames of an operation -/

/-- One transaction to come: `Txn(a, c, N, dir)` without the control byte, which the operation's direction gives. -/
structure Frame where
  /-- The target address `a`. -/
  addr : Byte
  /-- The payload count `N`. -/
  count : Byte
  /-- `wr(a, v)` loads `DBUF[0] <- v` (R81); `none`: DBUF as it stands. -/
  data : Option Byte
deriving DecidableEq, Repr

/-- `wr(a, v)` (R81). -/
def Frame.single (a v : Byte) : Frame := ⟨a, 1, some v⟩

/-- A frame whose payload, if it sends one, is already in DBUF: `wrblk(a, DBUF[0 .. n-1])`, `rdblk(a, n)`, and `rd(a)`
with `n = 1` (R81). -/
def Frame.block (a n : Byte) : Frame := ⟨a, n, none⟩

/-- Whether an operation's transactions read: RDREG, RDBLK, RDMSG and LASTCH. No operation mixes directions (R72 to
R75, R102, R110, R131, R132; log 19). -/
def opcodeReads : Opcode → Bool
  | .wrreg => false
  | .wrblk => false
  | .rdreg => true
  | .rdblk => true
  | .chdis => false
  | .chtx => false
  | .chrx => false
  | .chrrn => false
  | .chrr => false
  | .chir => false
  | .chdr => false
  | .chrrd => false
  | .rdmsg => true
  | .lastch => true
  | .rderr => false

/-- Whether the operation in progress reads. -/
def State.reads (s : State) : Bool :=
  match s.opcode with
  | some o => opcodeReads o
  | none => false

/-- The control byte of the operation's transactions: `CMD_READ` or `CMD_WRITE` (R51, R52). -/
def State.controlByte (s : State) : Byte := if s.reads then s.cfg.cmdRead else s.cfg.cmdWrite

/-- The six single writes of CHDIS, in order (R110). -/
def State.disableFrames (s : State) : List Frame :=
  [ .single (chreg s.cfg s.ch s.cfg.offIdtag) 0,
    .single (chreg s.cfg s.ch s.cfg.offIdcmd) 0,
    .single (chreg s.cfg s.ch s.cfg.offMptr) 0,
    .single (chreg s.cfg s.ch s.cfg.offLsta) 0,
    .single (chreg s.cfg s.ch s.cfg.offMask0) 0,
    .single (chreg s.cfg s.ch s.cfg.offMask1) 0 ]

/-- The four register writes of Configure, length + status last (R102). -/
def State.registerFrames (s : State) : List Frame :=
  [ .single (chreg s.cfg s.ch s.cfg.offIdtag) s.id1,
    .single (chreg s.cfg s.ch s.cfg.offIdcmd) s.bIdcmd,
    .single (chreg s.cfg s.ch s.cfg.offMptr) s.bMptr,
    .single (chreg s.cfg s.ch s.cfg.offLsta) s.bLsta ]

/-- The staging frame of Configure: the payload at `MBADDR(PTR +8 1)`, from the full 8-bit `PTR` (R102, R106). -/
def State.stagingFrame (s : State) : Frame := .block (mbaddr (s.ptr + 1)) s.len

/-- The frames of Configure for a mode: payload before configuration (R102, R103). -/
def State.configureFrames (s : State) (m : ModeRow) : List Frame :=
  if m.staged then s.stagingFrame :: s.registerFrames else s.registerFrames

/-- The five reads of RDMSG (R131): the two identifier bytes, the pointer byte, the status byte where the pointer
says, and the payload at the fixed place `ch*30 + 1`. -/
def State.messageFrames (s : State) : List Frame :=
  [ .block (chreg s.cfg s.ch s.cfg.offIdtag) 1,
    .block (chreg s.cfg s.ch s.cfg.offIdcmd) 1,
    .block (chreg s.cfg s.ch s.cfg.offMptr) 1,
    .block (mbaddr (stripDrak s.p)) 1,
    .block (mbaddr (s.ptr + 1)) (statusLength s.sta) ]

/-- The transactions of an operation, `MSTEP` 0 first, from the latches as they stand. A frame's own operands are
latched before its turn comes. -/
def State.frames (s : State) : Opcode → List Frame
  | .wrreg => [.block s.a 1]
  | .wrblk => [.block s.a s.n]
  | .rdreg => [.block s.a 1]
  | .rdblk => [.block s.a s.n]
  | .chdis => s.disableFrames
  | .chtx => s.configureFrames (modeRow .chtx)
  | .chrx => s.configureFrames (modeRow .chrx)
  | .chrrn => s.configureFrames (modeRow .chrrn)
  | .chrr => s.configureFrames (modeRow .chrr)
  | .chir => s.configureFrames (modeRow .chir)
  | .chdr => s.configureFrames (modeRow .chdr)
  | .chrrd => s.configureFrames (modeRow .chrrd)
  | .rdmsg => s.messageFrames
  | .lastch => [.block (fixedAddress s.cfg .lastmsg) 1]
  | .rderr => []

/-- The transaction `MSTEP` names; none when the operation has no more. -/
def State.currentFrame (s : State) : Option Frame :=
  match s.opcode with
  | some o => (s.frames o)[s.mstep]?
  | none => none

/-! ## Between transactions -/

/-- What an operation delivers when its last transaction has ended (R16): RDREG and RDBLK the bytes read (R74, R75), RDMSG
the two identifier bytes and the payload (R131), LASTCH the channel index (R132), RDERR the counter (R140); the
others nothing. -/
def State.deliverResult (s : State) : State :=
  match s.opcode with
  | some .rdreg => s.deliver s.r
  | some .rdblk => s.deliver s.r
  | some .rdmsg => s.deliver (s.b0 :: s.b1 :: s.r)
  | some .lastch => s.deliver [lastChannel s.cfg s.rx]
  | some .rderr => s.deliver (errcntBytes s.cfg s.errcnt)
  | _ => s

/-- The end of an operation: its result delivered, `BUSY <- 0`, the position back at `(0, IDLE, 0)` (R12, R13). -/
def State.finish (s : State) : State :=
  { s.deliverResult with busy := false, mstep := 0, ph := .idle, i := 0 }

/-- The start of transaction `MSTEP`: `A <- a; C <- c; N; I <- 0` (R70), or the end of the operation. -/
def State.beginTransaction (s : State) : State :=
  match s.currentFrame with
  | some f =>
    { s with
      a := f.addr
      c := s.controlByte
      n := f.count
      i := 0
      dbuf := match f.data with
        | some v => s.dbuf.write 0 v
        | none => s.dbuf
      r := []
      ph := .select }
  | none => s.finish

/-- What a macro operation keeps from a transaction that has just ended: RDMSG's `b0`, `b1`, `p`, and its `s` with
`PTR <- ch *8 30` (R131). The one byte of `rd(a)` is `RX` (R81). -/
def State.collect (s : State) : State :=
  match s.opcode with
  | some .rdmsg =>
    match s.mstep with
    | 0 => { s with b0 := s.rx }
    | 1 => { s with b1 := s.rx }
    | 2 => { s with p := s.rx }
    | 3 => { s with sta := s.rx, ptr := s.ch * rxSpacing }
    | _ => s
  | _ => s

/-- `MSTEP` advances by one (R80). -/
def State.nextTransaction (s : State) : State :=
  { s.collect with mstep := s.mstep + 1 }.beginTransaction

/-! ## Within a transaction (R70) -/

/-- One payload exchange: a write sends `DBUF[I]` and discards the byte returned, a read sends `FILLER` and keeps it
(R51, R70). -/
def State.exchangePayload (s : State) : State :=
  if s.reads then
    let s' := s.xchg filler
    { s' with r := s'.r ++ [s'.rx] }
  else s.xchg (s.dbuf.read s.i.toNat)

/-- `while I < N`: on with the payload, or to the deselect. -/
def State.payloadOrEnd (s : State) : State :=
  { s with ph := if s.i < s.n then .data else .deselect }

/-- One move of the sequencer: the current phase completes (R12, R70, R71). Only the checks and `I < N` are tested, and a
check never changes the path (R76, R80). -/
def State.tick (s : State) : State :=
  match s.ph with
  | .idle => s.beginTransaction
  | .select => { s.selectTarget with ph := .wSel }
  | .wSel => { s.delay s.cfg.tSel with ph := .addr }
  | .addr => { (s.xchg s.a).checkAck s.cfg.addrAck .address with ph := .wAddr }
  | .wAddr => { s.delay s.cfg.tAddr with ph := .cmd }
  | .cmd => { (s.xchg s.c).checkAck s.cfg.cmdAck .control with ph := .wCmd }
  | .wCmd => (s.delay s.cfg.tCmd).payloadOrEnd
  | .data => { s.exchangePayload with ph := .wData }
  | .wData => { s.delay s.cfg.tData with i := s.i + 1 }.payloadOrEnd
  | .deselect => { s.deselectTarget with ph := .wDesel }
  | .wDesel => (s.delay s.cfg.tDesel).nextTransaction

/-! ## Running an operation -/

/-- Moves the sequencer until the operation ends or is held, at most `k` moves. -/
def State.run : Nat → State → State
  | 0, s => s
  | k + 1, s => if s.running then State.run k s.tick else s

/-- More moves than any operation needs: one to start it, and for a frame of `N` payload bytes `8 + 2N`; the longest
operation has one frame of 255 bytes and four of one, the most frames is six. -/
def moveBound : Nat := 1024

/-- An operation in progress goes on until it ends or is held (R17, R79). -/
def State.resume (s : State) : State := State.run moveBound s

end Sys2Proof.Machine
end

