-- ==== Sys2Proof/Machine/Channel.lean ====
section
/-! DEFINITION. The eight channel-configuration operations (42_channel_encoder.md R110 to R117). -/

namespace Sys2Proof.Machine

/-- A descriptor of one of the seven non-Disable operations is accepted: CH, ID1, ID2 and LEN loaded (R11, R57). -/
def State.acceptChannel (s : State) (o : Opcode) (ch i1 : Byte) (i2 : Nibble) (len : Byte) : State :=
  { s.accept o with ch := ch, id1 := i1, id2 := i2, len := len }

/-- The first lines of Configure: the message pointer and the packed bytes of mode `m`, from the operand latches (R102). -/
def State.packChannel (s : State) (m : ModeRow) : State :=
  { s with
    ptr := messagePointer m s.ch s.len
    bIdcmd := modeIdcmd m s.id2 s.rakl
    bMptr := modeMptr m (messagePointer m s.ch s.len)
    bLsta := modeLsta m s.len }

/-- CHDIS `ch`: six single writes of 0x00 (R110). -/
def execChdis (ch : Byte) (s : State) : Host.Outcome State Fault Refusal :=
  .next { s.accept .chdis with ch := ch }.resume

/-- CHTX `ch, id, rak, [d..]`: `Configure(Transmit, ..)` (R111). -/
def execChtx (ch i1 : Byte) (i2 : Nibble) (rak : Bool) (d : List Byte) (s : State) :
    Host.Outcome State Fault Refusal :=
  .next (({ s.acceptChannel .chtx ch i1 i2 (countByte d) with
    rakl := rak, dbuf := s.dbuf.load d }.packChannel (modeRow .chtx)).resume)

/-- CHRX `ch, id, len`: `Configure(Receive, ..)` (R112). -/
def execChrx (ch i1 : Byte) (i2 : Nibble) (len : Byte) (s : State) : Host.Outcome State Fault Refusal :=
  .next ((s.acceptChannel .chrx ch i1 i2 len).packChannel (modeRow .chrx)).resume

/-- CHRRN `ch, id, len`: `Configure(ReplyRequestNoTx, ..)` (R113). -/
def execChrrn (ch i1 : Byte) (i2 : Nibble) (len : Byte) (s : State) : Host.Outcome State Fault Refusal :=
  .next ((s.acceptChannel .chrrn ch i1 i2 len).packChannel (modeRow .chrrn)).resume

/-- CHRR `ch, id, len`: `Configure(ReplyRequest, ..)` (R114). -/
def execChrr (ch i1 : Byte) (i2 : Nibble) (len : Byte) (s : State) : Host.Outcome State Fault Refusal :=
  .next ((s.acceptChannel .chrr ch i1 i2 len).packChannel (modeRow .chrr)).resume

/-- CHIR `ch, id, [d..]`: `Configure(ImmediateReply, ..)` (R115). -/
def execChir (ch i1 : Byte) (i2 : Nibble) (d : List Byte) (s : State) : Host.Outcome State Fault Refusal :=
  .next (({ s.acceptChannel .chir ch i1 i2 (countByte d) with
    dbuf := s.dbuf.load d }.packChannel (modeRow .chir)).resume)

/-- CHDR `ch, id, [d..]`: `Configure(DeferredReply, ..)` (R116). -/
def execChdr (ch i1 : Byte) (i2 : Nibble) (d : List Byte) (s : State) : Host.Outcome State Fault Refusal :=
  .next (({ s.acceptChannel .chdr ch i1 i2 (countByte d) with
    dbuf := s.dbuf.load d }.packChannel (modeRow .chdr)).resume)

/-- CHRRD `ch, id, len`: `Configure(ReplyRequestDetection, ..)` (R117). -/
def execChrrd (ch i1 : Byte) (i2 : Nibble) (len : Byte) (s : State) : Host.Outcome State Fault Refusal :=
  .next ((s.acceptChannel .chrrd ch i1 i2 len).packChannel (modeRow .chrrd)).resume

end Sys2Proof.Machine
end

