-- ==== Sys2Proof/Machine/Ingest.lean ====
section
/-! DEFINITION. The two message-ingest operations (43_message_ingest.md R131, R132). -/

namespace Sys2Proof.Machine

/-- RDMSG `ch`: five reads, then `RBUF = [b0, b1, payload..]`, `RLEN = n + 2` (R131). -/
def execRdmsg (ch : Byte) (s : State) : Host.Outcome State Fault Refusal :=
  .next { s.accept .rdmsg with ch := ch }.resume

/-- LASTCH: `v <- rd(A_LASTMSG)`, its 3-bit channel index delivered (R132). -/
def execLastch (s : State) : Host.Outcome State Fault Refusal :=
  .next (s.accept .lastch).resume

end Sys2Proof.Machine
end

