-- ==== Sys2Proof/Machine/Primitive.lean ====
section
/-! DEFINITION. The four primitive operations (40_register_access.md R72 to R75). -/

namespace Sys2Proof.Machine

/-- WRREG `a, v`: `DBUF[0] <- v; Txn(a, CMD_WRITE, 1, write)` (R72). -/
def execWrreg (a v : Byte) (s : State) : Host.Outcome State Fault Refusal :=
  .next { s.accept .wrreg with a := a, dbuf := s.dbuf.load [v] }.resume

/-- WRBLK `a, [d..]`: `DBUF[0..n-1] <- d; Txn(a, CMD_WRITE, n, write)` (R73). -/
def execWrblk (a : Byte) (d : List Byte) (s : State) : Host.Outcome State Fault Refusal :=
  .next { s.accept .wrblk with a := a, n := countByte d, dbuf := s.dbuf.load d }.resume

/-- RDREG `a`: `R <- Txn(a, CMD_READ, 1, read); RBUF[0] <- R[0]; RLEN <- 1` (R74). -/
def execRdreg (a : Byte) (s : State) : Host.Outcome State Fault Refusal :=
  .next { s.accept .rdreg with a := a }.resume

/-- RDBLK `a, n`: `R <- Txn(a, CMD_READ, n, read); RBUF[0..n-1] <- R; RLEN <- n` (R75). -/
def execRdblk (a n : Byte) (s : State) : Host.Outcome State Fault Refusal :=
  .next { s.accept .rdblk with a := a, n := n }.resume

end Sys2Proof.Machine
end

