-- ==== Sys2Proof/Machine/Status.lean ====
section
/-! DEFINITION. The status operation (44_status_ops.md R140). -/

namespace Sys2Proof.Machine

/-- RDERR: the error counter delivered, most significant byte first; no frame, so it cannot be held and raises no
HandshakeMismatch (R140, R152). -/
def execRderr (s : State) : Host.Outcome State Fault Refusal :=
  .next (s.accept .rderr).resume

end Sys2Proof.Machine
end

