-- ==== Sys2Proof/Machine/Dispatch.lean ====
section
/-! DEFINITION. One arm per constructor of Instr: the meaning of each operation. -/

namespace Sys2Proof.Machine

def exec (i : Instr) (s : State) : Host.Outcome State Fault Refusal :=
  match i with
  | .wrreg a v => Sys2Proof.Machine.execWrreg a v s
  | .wrblk a d => Sys2Proof.Machine.execWrblk a d s
  | .rdreg a => Sys2Proof.Machine.execRdreg a s
  | .rdblk a n => Sys2Proof.Machine.execRdblk a n s
  | .chdis ch => Sys2Proof.Machine.execChdis ch s
  | .chtx ch i1 i2 rak d => Sys2Proof.Machine.execChtx ch i1 i2 rak d s
  | .chrx ch i1 i2 len => Sys2Proof.Machine.execChrx ch i1 i2 len s
  | .chrrn ch i1 i2 len => Sys2Proof.Machine.execChrrn ch i1 i2 len s
  | .chrr ch i1 i2 len => Sys2Proof.Machine.execChrr ch i1 i2 len s
  | .chir ch i1 i2 d => Sys2Proof.Machine.execChir ch i1 i2 d s
  | .chdr ch i1 i2 d => Sys2Proof.Machine.execChdr ch i1 i2 d s
  | .chrrd ch i1 i2 len => Sys2Proof.Machine.execChrrd ch i1 i2 len s
  | .rdmsg ch => Sys2Proof.Machine.execRdmsg ch s
  | .lastch => Sys2Proof.Machine.execLastch s
  | .rderr => Sys2Proof.Machine.execRderr s

end Sys2Proof.Machine
end

