-- ==== Sys2Proof/Machine/Inputs.lean ====
section
/-! DEFINITION. What one step does with the next move of host or Transport (10_state.md R13, R17, R21, R22; 30_encoding.md R55,
R58). Step.lean only calls this. -/

namespace Sys2Proof.Machine

/-- The first of the moves to come has happened. -/
def State.consumeInput (s : State) : State := { s with inputs := s.inputs.tail }

/-- The host presents a descriptor. With BUSY = 0 it is decoded: an operation is performed, anything else rejected
(R55, R58). With BUSY = 1 it has no effect (R55, R178, 93 U8; log 11). -/
def State.takeDescriptor (s : State) (d : List Byte) : Host.Outcome State Fault Refusal :=
  if s.busy then .next s
  else
    match decode d with
    | .ok i => exec i s
    | .error _ => .next s.reject

/-- The Transport completes `c` more exchanges and delays (`none`: every one); an operation in progress goes on (R17). -/
def State.takeTransport (s : State) (c : Option Nat) : State :=
  { s with transport := { s.transport with credit := c } }.resume

/-- One step: the next move of host or Transport is taken; where there is none, an operation in progress goes on if the
Transport lets it, and an idle block does nothing, since it "performs no link event on its own" (R170, R179). -/
def State.stepInput (s : State) : Host.Outcome State Fault Refusal :=
  match s.inputs with
  | [] => .next s.resume
  | .reset :: _ => .next s.consumeInput.afterReset
  | .transport c :: _ => .next (s.consumeInput.takeTransport c)
  | .present d :: _ => s.consumeInput.takeDescriptor d

/-- The host presents descriptor `d` next, to a block that is not busy. -/
def State.presentNext (s : State) (d : List Byte) : State :=
  { s with inputs := .present d :: s.inputs, busy := false }

end Sys2Proof.Machine
end

