-- ==== Sys2Proof/Machine/Step.lean ====
section
/-! DEFINITION. One step of the machine, and the word the host's question runs. -/

namespace Sys2Proof.Machine

/-- One step: the block takes the next move of its surroundings and runs until it is idle or held. -/
def step (s : State) : Host.Outcome State Fault Refusal := s.stepInput

/-- `s` with the descriptor of a table word presented next: the block fetches nothing, so an operation comes to run
by being presented while BUSY = 0 (R41, R55; log 14). -/
def State.withFetchWord (s : State) (nbits w : Nat) : State := s.presentNext (tableDescriptor nbits w)

end Sys2Proof.Machine
end

