-- ==== Sys2Proof/Machine/HostSide.lean ====
section
/-! DEFINITION. The host's side of the interface: what it reads (10_state.md R21), the pseudo-operation CHDISALL
(30_encoding.md R61) and the bring-up sequence the caller issues (70_reset_and_hazards.md R173). -/

namespace Sys2Proof.Machine

/-! ## What the host reads, at any time (R21) -/

/-- The host reads BUSY. -/
def State.hostBusy (s : State) : Bool := s.busy

/-- The host reads CSTAT. -/
def State.hostCstat (s : State) : CommandStatus := s.cstat

/-- The host reads RLEN: "meaningful only when `BUSY = 0`", a free value otherwise (R21; log 10). -/
def State.hostRlen (s : State) : Byte := if s.busy then Config.busyLength s.transport.exchanges else s.rlen

/-- The host reads element `i` of RBUF: "meaningful only when `BUSY = 0`", a free value otherwise (R21; log 10). -/
def State.hostRbuf (s : State) (i : Fin bufferSize) : Byte :=
  if s.busy then Config.busyResult s.transport.exchanges i else s.resultByte i

/-! ## Sequences of operations a caller issues -/

/-- `CHDISALL`: `CHDIS 0; CHDIS 1; ...; CHDIS 7` in that order (R61). -/
def chdisall : List Instr := (List.range nch).map fun c => .chdis (BitVec.ofNat 8 c)

/-- The caller's bring-up: the mode writes of `BRINGUP` as WRREG operations, then the disable sweep (R173(c), (d)). -/
def bringUp (p : Params) : List Instr := (p.bringup.map fun av => .wrreg av.1 av.2) ++ chdisall

/-- The moves by which the host issues operations one after another (R21). -/
def presentAll (ops : List Instr) : List Input := ops.map fun i => .present (encode i)

/-- The transfer trace: the link trace with `DLY` events removed (R18). -/
def transferTrace (t : List LinkEvent) : List LinkEvent :=
  t.filter fun e =>
    match e with
    | .dly _ => false
    | .sel | .x _ _ | .desel => true

end Sys2Proof.Machine
end

