-- ==== Sys2Proof/Machine/Assembler.lean ====
section
/-! DEFINITION. The assembler syntax the spec defines for writing test programs (30_encoding.md R60, R61): one operation a
line, mnemonic, operands separated by commas, numerals as in 00_scope.md R6. A text that is not of this syntax, or a
numeral too wide for its operand, assembles to nothing (DESIGN CHOICE; log 22). Not part of the block. -/

namespace Sys2Proof.Machine

/-! ## Tokens -/

/-- The tokens of a line. -/
inductive Token where
  | word (w : List Char)
  | num (n : Nat)
  | comma | lpar | rpar | lbrack | rbrack | plus
deriving DecidableEq, Repr

/-- The value of a hexadecimal digit. -/
def digitValue (c : Char) : Option Nat :=
  if '0' ≤ c ∧ c ≤ '9' then some (c.toNat - '0'.toNat)
  else if 'a' ≤ c ∧ c ≤ 'f' then some (c.toNat - 'a'.toNat + 10)
  else if 'A' ≤ c ∧ c ≤ 'F' then some (c.toNat - 'A'.toNat + 10)
  else none

/-- The value of a string of digits in a base. -/
def digitsValue (base : Nat) : Nat → List Char → Option Nat
  | acc, [] => some acc
  | acc, c :: cs =>
    match digitValue c with
    | some v => if v < base then digitsValue base (base * acc + v) cs else none
    | none => none

/-- A numeral: `0x` prefixes hexadecimal, "other numerals are decimal" (R6). -/
def numeral : List Char → Option Nat
  | [] => none
  | '0' :: 'x' :: [] => none
  | '0' :: 'x' :: cs => digitsValue 16 0 cs
  | cs => digitsValue 10 0 cs

/-- A character of a name or numeral. -/
def isNameChar (c : Char) : Bool :=
  (decide ('0' ≤ c) && decide (c ≤ '9')) || (decide ('a' ≤ c) && decide (c ≤ 'z'))
    || (decide ('A' ≤ c) && decide (c ≤ 'Z')) || c == '_'

/-- The token a finished run of name characters is: a numeral where it begins with a digit. -/
def wordToken (w : List Char) : Option Token :=
  match w with
  | [] => none
  | c :: _ => if '0' ≤ c ∧ c ≤ '9' then (numeral w).map .num else some (.word w)

/-- The token a punctuation character is. -/
def punctuation (c : Char) : Option Token :=
  if c = ',' then some .comma
  else if c = '(' then some .lpar
  else if c = ')' then some .rpar
  else if c = '[' then some .lbrack
  else if c = ']' then some .rbrack
  else if c = '+' then some .plus
  else none

/-- The tokens of the rest of a line, `w` the run of name characters read so far. -/
def lexFrom (w : List Char) : List Char → Option (List Token)
  | [] => if w = [] then some [] else (wordToken w).map fun t => [t]
  | c :: cs =>
    if isNameChar c then lexFrom (w ++ [c]) cs
    else
      match (if w = [] then some [] else (wordToken w).map fun t => [t]), lexFrom [] cs with
      | some before, some after =>
        if c = ' ' ∨ c = '\t' then some (before ++ after)
        else (punctuation c).map fun t => before ++ t :: after
      | _, _ => none

/-- The tokens of a line. -/
def lexLine (cs : List Char) : Option (List Token) := lexFrom [] cs

/-! ## Operands -/

/-- A numeral as a byte operand. -/
def byteOf (n : Nat) : Option Byte := if n < 256 then some (BitVec.ofNat 8 n) else none

/-- A numeral as a 12-bit identifier. -/
def identOf (n : Nat) : Option Ident := if n < 4096 then some (BitVec.ofNat 12 n) else none

/-- A numeral as the operand `rak`. -/
def rakOf (n : Nat) : Option Bool := if n = 0 then some false else if n = 1 then some true else none

/-- The symbolic register names of R5. -/
def registerNamed (w : List Char) : Option FixedRegister :=
  if w = "A_LINECTL".toList then some .linectl
  else if w = "A_TXCTL".toList then some .txctl
  else if w = "A_CMDREG".toList then some .cmdreg
  else if w = "A_LASTMSG".toList then some .lastmsg
  else if w = "A_INTEN".toList then some .inten
  else if w = "A_INTRST".toList then some .intrst
  else none

/-- An address operand and the tokens after it: a numeral, `CHADDR(c)`, `CHADDR(c)+k`, `MBADDR(off)` or a symbolic
register name (R60), with the arithmetic of R37. -/
def parseAddress (p : Params) : List Token → Option (Byte × List Token)
  | .num n :: ts => (byteOf n).map fun a => (a, ts)
  | .word w :: .lpar :: .num c :: .rpar :: .plus :: .num k :: ts =>
    match byteOf c, byteOf k with
    | some c, some k => if w = "CHADDR".toList then some (chreg p c k, ts) else none
    | _, _ => none
  | .word w :: .lpar :: .num c :: .rpar :: ts =>
    match byteOf c with
    | some c =>
      if w = "CHADDR".toList then some (chaddr p c, ts)
      else if w = "MBADDR".toList then some (mbaddr c, ts)
      else none
    | none => none
  | .word w :: ts => (registerNamed w).map fun r => (fixedAddress p r, ts)
  | _ => none

/-- The bytes of a byte list after its opening bracket, up to the end of the line. -/
def parseBytes : List Token → Option (List Byte)
  | [.rbrack] => some []
  | [.num n, .rbrack] => (byteOf n).map fun b => [b]
  | .num n :: .comma :: ts =>
    match byteOf n, parseBytes ts with
    | some b, some (b' :: bs) => some (b :: b' :: bs)
    | _, _ => none
  | _ => none

/-- Operands `ch, id, len` of the four operations of format M1. -/
def parseM1 : List Token → Option (Byte × Byte × Nibble × Byte)
  | [.num ch, .comma, .num id, .comma, .num len] =>
    match byteOf ch, identOf id, byteOf len with
    | some ch, some id, some len => some (ch, identHigh id, identLow id, len)
    | _, _, _ => none
  | _ => none

/-- Operands `ch, id, [d..]` of the two operations of format M2. -/
def parseM2 : List Token → Option (Byte × Byte × Nibble × List Byte)
  | .num ch :: .comma :: .num id :: .comma :: .lbrack :: ts =>
    match byteOf ch, identOf id, parseBytes ts with
    | some ch, some id, some d => some (ch, identHigh id, identLow id, d)
    | _, _, _ => none
  | _ => none

/-! ## Operations -/

/-- The operation a mnemonic names (R56). -/
def opcodeNamed (w : List Char) : Option Opcode :=
  if w = "WRREG".toList then some .wrreg
  else if w = "WRBLK".toList then some .wrblk
  else if w = "RDREG".toList then some .rdreg
  else if w = "RDBLK".toList then some .rdblk
  else if w = "CHDIS".toList then some .chdis
  else if w = "CHTX".toList then some .chtx
  else if w = "CHRX".toList then some .chrx
  else if w = "CHRRN".toList then some .chrrn
  else if w = "CHRR".toList then some .chrr
  else if w = "CHIR".toList then some .chir
  else if w = "CHDR".toList then some .chdr
  else if w = "CHRRD".toList then some .chrrd
  else if w = "RDMSG".toList then some .rdmsg
  else if w = "LASTCH".toList then some .lastch
  else if w = "RDERR".toList then some .rderr
  else none

/-- The operation a mnemonic and its operand tokens spell (R60). -/
def parseOperation (p : Params) (o : Opcode) (ts : List Token) : Option Instr :=
  match o with
  | .wrreg =>
    match parseAddress p ts with
    | some (a, [.comma, .num v]) => (byteOf v).map fun v => .wrreg a v
    | _ => none
  | .wrblk =>
    match parseAddress p ts with
    | some (a, .comma :: .lbrack :: ds) => (parseBytes ds).map fun d => .wrblk a d
    | _ => none
  | .rdreg =>
    match parseAddress p ts with
    | some (a, []) => some (.rdreg a)
    | _ => none
  | .rdblk =>
    match parseAddress p ts with
    | some (a, [.comma, .num n]) => (byteOf n).map fun n => .rdblk a n
    | _ => none
  | .chdis =>
    match ts with
    | [.num ch] => (byteOf ch).map .chdis
    | _ => none
  | .chtx =>
    match ts with
    | .num ch :: .comma :: .num id :: .comma :: .num rak :: .comma :: .lbrack :: ds =>
      match byteOf ch, identOf id, rakOf rak, parseBytes ds with
      | some ch, some id, some rak, some d => some (.chtx ch (identHigh id) (identLow id) rak d)
      | _, _, _, _ => none
    | _ => none
  | .chrx => (parseM1 ts).map fun (ch, i1, i2, len) => .chrx ch i1 i2 len
  | .chrrn => (parseM1 ts).map fun (ch, i1, i2, len) => .chrrn ch i1 i2 len
  | .chrr => (parseM1 ts).map fun (ch, i1, i2, len) => .chrr ch i1 i2 len
  | .chir => (parseM2 ts).map fun (ch, i1, i2, d) => .chir ch i1 i2 d
  | .chdr => (parseM2 ts).map fun (ch, i1, i2, d) => .chdr ch i1 i2 d
  | .chrrd => (parseM1 ts).map fun (ch, i1, i2, len) => .chrrd ch i1 i2 len
  | .rdmsg =>
    match ts with
    | [.num ch] => (byteOf ch).map .rdmsg
    | _ => none
  | .lastch => if ts = [] then some .lastch else none
  | .rderr => if ts = [] then some .rderr else none

/-- The operations of one line: one operation, the expansion of `CHDISALL`, or none on an empty line. An operation whose
payload does not fit its count byte has no descriptor and is no operation. -/
def assembleLine (p : Params) (line : List Char) : Option (List Instr) :=
  match lexLine line with
  | some [] => some []
  | some (.word w :: ts) =>
    if w = "CHDISALL".toList then (if ts = [] then some chdisall else none)
    else
      match opcodeNamed w with
      | some o =>
        match parseOperation p o ts with
        | some i => if i.wf then some [i] else none
        | none => none
      | none => none
  | _ => none

/-- The lines of a text, `w` the line read so far. -/
def splitLines (w : List Char) : List Char → List (List Char)
  | [] => [w]
  | c :: cs => if c = '\n' then w :: splitLines [] cs else splitLines (w ++ [c]) cs

/-- The operations of a list of lines. -/
def assembleLines (p : Params) : List (List Char) → Option (List Instr)
  | [] => some []
  | l :: ls =>
    match assembleLine p l, assembleLines p ls with
    | some xs, some ys => some (xs ++ ys)
    | _, _ => none

/-- The operations of a program text (R60, R61). -/
def assemble (p : Params) (text : List Char) : Option (List Instr) := assembleLines p (splitLines [] text)

end Sys2Proof.Machine
end

