-- ==== Sys2Proof/Safety.lean ====
section
/-! DEFINITION. The terms claims are stated in: what the link shows of a frame (30_encoding.md R51, 40_register_access.md
R70, R71, R78), what it means that an operation was performed, and the invariants of the machine. -/

namespace Sys2Proof.Machine

/-! ## The Transport's answers -/

/-- The byte the `k`-th exchange from now returns. -/
def Transport.answer (x : Transport) (k : Nat) : Byte :=
  match x.answers[k]? with
  | some r => r
  | none => Config.freeReturn (x.exchanges + k)

/-- The Transport after `k` more exchanges, none of them a hold. -/
def Transport.skip (x : Transport) (k : Nat) : Transport :=
  { x with answers := x.answers.drop k, exchanges := x.exchanges + k }

/-- The byte the `k`-th exchange from now returns. -/
def State.answer (s : State) (k : Nat) : Byte := s.transport.answer k

/-- "The premise that the Transport completes every exchange and delay" (R179). -/
abbrev State.Completes (s : State) : Prop := s.transport.credit = none

/-! ## What the link shows -/

/-- One frame as the link sees it: the address byte and the payload bytes sent (fillers when it reads). -/
structure LinkFrame where
  addr : Byte
  sent : List Byte
deriving DecidableEq, Repr

/-- The events of one delay slot: none when its duration is 0 (R7, R71). -/
def slot (n : Nat) : List LinkEvent := if n = 0 then [] else [.dly n]

/-- The payload exchanges of a frame, each with its delay slot; `ans k` is the byte the `k`-th of them returns. -/
def payloadTrace (p : Params) : List Byte → (Nat → Byte) → List LinkEvent
  | [], _ => []
  | b :: bs, ans => .x b (ans 0) :: slot p.tData ++ payloadTrace p bs fun k => ans (k + 1)

/-- The events of one frame with control byte `c` (R70): `ans k` is the byte its `k`-th exchange returns. -/
def frameTrace (p : Params) (c : Byte) (f : LinkFrame) (ans : Nat → Byte) : List LinkEvent :=
  [.sel] ++ slot p.tSel ++ [.x f.addr (ans 0)] ++ slot p.tAddr ++ [.x c (ans 1)] ++ slot p.tCmd
    ++ payloadTrace p f.sent (fun k => ans (k + 2)) ++ [.desel] ++ slot p.tDesel

/-- The exchanges of one frame: `2 + N` (R50, R54). -/
def LinkFrame.exchanges (f : LinkFrame) : Nat := 2 + f.sent.length

/-- How many of the two checks of a frame fail: 0, 1 or 2 (R78). -/
def frameMisses (p : Params) (ans : Nat → Byte) : Nat :=
  (if ans 0 = p.addrAck then 0 else 1) + (if ans 1 = p.cmdAck then 0 else 1)

/-- The events of frames one after another (R39, R176). -/
def framesTrace (p : Params) (c : Byte) : List LinkFrame → (Nat → Byte) → List LinkEvent
  | [], _ => []
  | f :: fs, ans => frameTrace p c f ans ++ framesTrace p c fs fun k => ans (k + f.exchanges)

/-- The failed checks of frames one after another (R152). -/
def framesMisses (p : Params) : List LinkFrame → (Nat → Byte) → Nat
  | [], _ => 0
  | f :: fs, ans => frameMisses p ans + framesMisses p fs fun k => ans (k + f.exchanges)

/-- The exchanges of frames one after another. -/
def framesExchanges : List LinkFrame → Nat
  | [] => 0
  | f :: fs => f.exchanges + framesExchanges fs

/-- The frames of single writes `(address, value)`. -/
def singles (ws : List (Byte × Byte)) : List LinkFrame := ws.map fun w => ⟨w.1, [w.2]⟩

/-- The frame of a read of `n` bytes at `a`: `n` fillers sent (R51). -/
def readFrame (a n : Byte) : LinkFrame := ⟨a, List.replicate n.toNat filler⟩

/-! ## The failed checks of a history -/

/-- Which check the next exchange undergoes (R70, R78). -/
inductive Expected where
  | address | control | nothing
deriving DecidableEq, Repr

/-- The check the next exchange undergoes when the sequencer is at a phase. -/
def Phase.expected : Phase → Expected
  | .wSel | .addr => .address
  | .wAddr | .cmd => .control
  | .idle | .select | .wCmd | .data | .wData | .deselect | .wDesel => .nothing

/-- The check the next exchange of a block undergoes: none where no operation is in progress, for the next one begins with a
`Select()`. -/
def State.expected (s : State) : Expected := if s.busy then s.ph.expected else .nothing

/-- The failed checks among the events of a link trace, the next exchange expected to undergo the check given: after a `SEL` the
first byte returned is compared with `ADDR_ACK` and the second with `CMD_ACK`, all others with nothing (R50, R53, R78; which
byte is compared is the reading of 92 D5, log 5). -/
def failedChecks (p : Params) : Expected → List LinkEvent → Nat
  | _, [] => 0
  | _, .sel :: t => failedChecks p .address t
  | _, .desel :: t => failedChecks p .nothing t
  | e, .dly _ :: t => failedChecks p e t
  | .address, .x _ r :: t => (if r = p.addrAck then 0 else 1) + failedChecks p .control t
  | .control, .x _ r :: t => (if r = p.cmdAck then 0 else 1) + failedChecks p .nothing t
  | .nothing, .x _ _ :: t => failedChecks p .nothing t

/-! ## Sound registers -/

/-- ERRCNT is a number of `ERRCNT_W` bits (R14). -/
abbrev State.ErrcntInRange (s : State) : Prop := s.errcnt < 2 ^ s.cfg.errcntW

/-- Both buffers keep their canonical form. -/
abbrev State.BuffersCanonical (s : State) : Prop := s.dbuf.wf = true ∧ s.rbuf.wf = true

/-- A block to which the host may present a descriptor (R21): idle, no scope open, its counter and buffers sound, and the
Transport completing every exchange and delay (R179). -/
abbrev State.Ready (s : State) : Prop :=
  s.busy = false ∧ s.selline = false ∧ s.ErrcntInRange ∧ s.BuffersCanonical ∧ s.Completes

/-! ## Whole operations -/

/-- From `s` to `t` exactly the frames `fs` with control byte `c` were performed, the failed checks counted, and the
block is idle again with `CSTAT = OK` (R12, R13, R39, R78). Nothing is said of latches and results. -/
def Performed (c : Byte) (fs : List LinkFrame) (s t : State) : Prop :=
  t.trace = s.trace ++ framesTrace s.cfg c fs s.answer ∧
  t.errcnt = (s.errcnt + framesMisses s.cfg fs s.answer) % 2 ^ s.cfg.errcntW ∧
  t.transport = s.transport.skip (framesExchanges fs) ∧
  t.busy = false ∧ t.cstat = .ok ∧ t.selline = false ∧ t.ph = .idle ∧ t.mstep = 0 ∧ t.i = 0 ∧
  t.inputs = s.inputs ∧ t.cfg = s.cfg

/-- What the host can read of the results is unchanged: RLEN and every element of RBUF (R16, R21). -/
def SameResult (s t : State) : Prop :=
  t.rlen = s.rlen ∧ ∀ i, i < bufferSize → t.resultByte i = s.resultByte i

/-- `bs` has been delivered: RLEN and RBUF (R16). -/
def Delivered (bs : List Byte) (t : State) : Prop :=
  t.rlen = BitVec.ofNat 8 bs.length ∧ ∀ (i : Nat) (b : Byte), bs[i]? = some b → t.resultByte i = b

/-! ## Invariants -/

/-- Whether a phase lies between `Select()` and `Deselect()` (R15, R70). -/
def Phase.selected : Phase → Bool
  | .wSel | .addr | .wAddr | .cmd | .wCmd | .data | .wData | .deselect => true
  | .idle | .select | .wDesel => false

/-- Reads a link trace from its start, the selection scope open or not: `Select()` only outside a scope, `Deselect()` and
exchanges only inside one (R15, R176); the result is whether a scope is open at its end, or none where the discipline is
broken. -/
def scopeAfter : Bool → List LinkEvent → Option Bool
  | b, [] => some b
  | b, .sel :: t => if b then none else scopeAfter true t
  | b, .desel :: t => if b then scopeAfter false t else none
  | b, .x _ _ :: t => if b then scopeAfter b t else none
  | b, .dly _ :: t => scopeAfter b t

/-- Scopes never overlap and never nest, nothing is sent outside one, and SELLINE says whether one is open (R15, R176). -/
abbrev State.ScopesSound (s : State) : Prop :=
  s.selline = s.ph.selected ∧ scopeAfter false s.trace = some s.selline

/-- The sequencer position: an idle block is at `(0, IDLE, 0)` and a busy one is at a transaction of a real operation
(R11, R12); `I` never passes `N` where the payload is under way. -/
abbrev State.PositionSound (s : State) : Prop :=
  (s.busy = false → s.mstep = 0 ∧ s.ph = .idle ∧ s.i = 0) ∧
  (s.busy = true → s.ph ≠ .idle ∧ s.opcode ≠ none) ∧
  ((s.ph = .data ∨ s.ph = .wData) → s.i < s.n)

/-- Between steps the block is idle or held, never on its way (R13, R17, R79). -/
abbrev State.Settled (s : State) : Prop := s.running = false

/-- Everything the machine keeps true of itself. -/
structure State.Inv (s : State) : Prop where
  params : s.cfg.wf = true
  buffers : s.BuffersCanonical
  errcnt : s.ErrcntInRange
  position : s.PositionSound
  scopes : s.ScopesSound
  settled : s.Settled

end Sys2Proof.Machine
end

