-- ==== Sys2Proof/Certificates/Slice0/Obligations.lean ====
section
/-! DEFINITION. The statements for the provers. Each docstring cites the rule of spec/ it rests on. A statement speaks of every state,
hence of every value of the open parameters (`State.cfg`) and of every byte the Transport may return (`State.answer`). -/

open Sys2Proof Sys2Proof.Machine

/-! ## Descriptors -/

/-- Decoding the descriptor of a well-formed operation gives the operation back, every operand at every value (R55, R56,
R57; the descriptor's form is the spec's own choice, 92 D2, D3). -/
def Obligations.DecodeOfEncodeIsIdentity : Prop :=
  ∀ i : Instr, i.wf = true → decode (encode i) = .ok i

/-- A descriptor that is accepted is the encoding of what it decodes to, which is well-formed: no bit of it is
ignored (R57, R58, R59; 92 D3, D23). -/
def Obligations.EncodeOfDecodeIsIdentity : Prop :=
  ∀ (d : List Byte) (i : Instr), decode d = .ok i → encode i = d ∧ i.wf = true

/-- The condition of R58, byte by byte: byte 0 is one of the 15 codes, the length is the one the format requires (R59),
`i2[7:4] = 0` and `rak[7:1] = 0` where the format has them. -/
def SpellsOperation (d : List Byte) : Prop :=
  ∃ (op : Byte) (bs : List Byte) (o : Opcode), d = op :: bs ∧ op = o.code ∧
    d.length = o.format.length (fun k => d.getD k 0) ∧
    ((o.format = .m1 ∨ o.format = .m2 ∨ o.format = .m3) → (d.getD 3 0).toNat < 16) ∧
    (o.format = .m3 → (d.getD 5 0).toNat < 2)

/-- A presented descriptor is performed exactly when it spells an operation; any other sets `CSTAT <- REJECTED` and
changes nothing else (R55, R58, R156; 92 D23). -/
def Obligations.DescriptorPerformedOrRejected : Prop :=
  ∀ (s : State) (d : List Byte) (rest : List Input), s.busy = false → s.inputs = .present d :: rest →
    (SpellsOperation d → ∃ i, decode d = .ok i ∧ step s = exec i { s with inputs := rest }) ∧
    (¬ SpellsOperation d → step s = .next { s with inputs := rest, cstat := .rejected })

/-- Words written out from the table of R56, one or more for each family, decode to the operations they stand for. -/
def Obligations.WrittenOutDescriptorsDecode : Prop :=
  decode [0x01, 0x12, 0x34] = .ok (.wrreg 0x12 0x34) ∧
  decode [0x02, 0x40, 0x02, 0xAA, 0xBB] = .ok (.wrblk 0x40 [0xAA, 0xBB]) ∧
  decode [0x04, 0x5B, 0x02] = .ok (.rdblk 0x5B 2) ∧
  decode [0x11, 0x02, 0x1A, 0x04, 0x03, 0x01, 0x11, 0x22, 0x33] = .ok (.chtx 2 0x1A 0x4 true [0x11, 0x22, 0x33]) ∧
  decode [0x16, 0x03, 0x4E, 0x0C, 0x01, 0xAA] = .ok (.chdr 3 0x4E 0xC [0xAA]) ∧
  decode [0x17, 0x04, 0x82, 0x04, 0x06] = .ok (.chrrd 4 0x82 0x4 6) ∧
  decode [0x20, 0x03] = .ok (.rdmsg 3) ∧
  decode [0x30] = .ok .rderr ∧
  decode [0x18, 0x02] = .error .reservedOp

/-- A step of an idle block to which a descriptor is presented that decodes to `i` is `exec i`, the presentation
used up (R13, R55). -/
def Obligations.StepRunsTheDecodedOperation : Prop :=
  ∀ (s : State) (d : List Byte) (i : Instr) (rest : List Input),
    s.busy = false → s.inputs = .present d :: rest → decode d = .ok i →
    step s = exec i { s with inputs := rest }

/-- A descriptor presented while BUSY = 1 has no effect (R55 performs one only when BUSY = 0; log 11, 93 U8), and a block
that is idle and to which nothing is presented does nothing (R170). -/
def Obligations.OnlyAnIdleBlockTakesADescriptor : Prop :=
  (∀ (s : State) (d : List Byte) (rest : List Input), s.busy = true → s.inputs = .present d :: rest →
    step s = .next { s with inputs := rest }) ∧
  (∀ s : State, s.busy = false → s.inputs = [] → step s = .next s)

/-! ## Operand forms -/

/-- Splitting and joining a 12-bit identifier are inverse, `i1` bits 11:4 and `i2` bits 3:0 (R57(a)). -/
def Obligations.IdentifierSplitJoinInverse : Prop :=
  (∀ id : Ident, identJoin (identHigh id) (identLow id) = id ∧
    (identHigh id).toNat = id.toNat / 16 ∧ (identLow id).toNat = id.toNat % 16) ∧
  (∀ (i1 : Byte) (i2 : Nibble), identHigh (identJoin i1 i2) = i1 ∧ identLow (identJoin i1 i2) = i2)

/-- `CHADDR` is base plus index times 8, modulo 256; with `CH_BASE + 63 < 0x80` the eight blocks lie below the mailbox and
distinct channels have disjoint 8-byte blocks; in the reference configuration the values of R90, in the domain and outside
it. -/
def Obligations.ChannelBlocksPlacedAndDisjoint : Prop :=
  (∀ (p : Params) (c : Byte), (chaddr p c).toNat = (p.chBase.toNat + 8 * c.toNat) % 256) ∧
  (∀ (p : Params) (c k : Byte), p.wf = true → c.toNat < 8 → k.toNat < 8 →
    (chreg p c k).toNat = p.chBase.toNat + 8 * c.toNat + k.toNat ∧ (chreg p c k).toNat < 0x80) ∧
  (∀ (p : Params) (c k c' k' : Byte), p.wf = true → c.toNat < 8 → k.toNat < 8 → c'.toNat < 8 → k'.toNat < 8 →
    chreg p c k = chreg p c' k' → c = c' ∧ k = k') ∧
  (∀ c : Byte, c.toNat < 8 → (chaddr referenceParams c).toNat = 0x10 + 8 * c.toNat) ∧
  chaddr referenceParams 8 = 0x50 ∧ chaddr referenceParams 14 = 0x80 ∧ chaddr referenceParams 30 = 0x00

/-- `MBADDR` is `0x80 + offset`: in 0x80..0xFF and injective on the mailbox, `off - 128` outside it (R91; the mailbox has `MB_SIZE` = 128 bytes, R5). -/
def Obligations.MailboxAddresses : Prop :=
  (∀ off : Byte, off.toNat < mbSize → (mbaddr off).toNat = 0x80 + off.toNat) ∧
  (∀ off off' : Byte, off.toNat < mbSize → off'.toNat < mbSize → mbaddr off = mbaddr off' → off = off') ∧
  (∀ off : Byte, mbSize ≤ off.toNat → (mbaddr off).toNat = off.toNat - 128) ∧
  mbaddr 150 = 0x16 ∧ mbaddr 124 = 0xFC

/-- The layouts of the packed bytes (R62 to R65): each pack function is the concatenation the spec writes and each unpack
function its inverse. The positions are the spec's own choice (92 D13). -/
def Obligations.PackedByteLayouts : Prop :=
  (∀ (id2 : Nibble) (ext rak rnw rtr : Bool),
    packIDCMD id2 ext rak rnw rtr =
      id2 ++ BitVec.ofBool ext ++ BitVec.ofBool rak ++ BitVec.ofBool rnw ++ BitVec.ofBool rtr ∧
    unpackId2 (packIDCMD id2 ext rak rnw rtr) = id2 ∧ unpackExt (packIDCMD id2 ext rak rnw rtr) = ext ∧
    unpackRak (packIDCMD id2 ext rak rnw rtr) = rak ∧ unpackRnw (packIDCMD id2 ext rak rnw rtr) = rnw ∧
    unpackRtr (packIDCMD id2 ext rak rnw rtr) = rtr) ∧
  (∀ (drak : Bool) (p : Byte),
    packMPTR drak p = BitVec.ofBool drak ++ p.extractLsb' 0 7 ∧ unpackDrak (packMPTR drak p) = drak ∧
    (stripDrak (packMPTR drak p)).toNat = p.toNat % 128) ∧
  (∀ (m : Byte) (cher chtx chrx : Bool),
    packLSTA m cher chtx chrx =
      m.extractLsb' 0 5 ++ BitVec.ofBool cher ++ BitVec.ofBool chtx ++ BitVec.ofBool chrx ∧
    (unpackML (packLSTA m cher chtx chrx)).toNat = m.toNat % 32 ∧ unpackCher (packLSTA m cher chtx chrx) = cher ∧
    unpackChtx (packLSTA m cher chtx chrx) = chtx ∧ unpackChrx (packLSTA m cher chtx chrx) = chrx) ∧
  (∀ sta : Byte, (statusLength sta).toNat = sta.toNat % 32 ∧ (statusCommand sta).toNat = sta.toNat / 32)

/-- "Length field `M_L = payloadLength + 1` uniformly", never 0 on the document's domain, and unpacking recovers the
length (R64, R104, R133); outside it, `L = 31` gives 0 (R104; 92 D15). -/
def Obligations.LengthFieldRoundTrip : Prop :=
  (∀ (o : Opcode) (len : Byte), o ∈ [.chtx, .chrx, .chrrn, .chrr, .chir, .chdr, .chrrd] → len.toNat ≤ 29 →
    (unpackML (modeLsta (modeRow o) len)).toNat = len.toNat + 1) ∧
  (∀ o : Opcode, unpackML (modeLsta (modeRow o) 31) = 0)

/-- The seven flags of a mode as a reader of the three packed bytes finds them, in the order of R101's columns: RNW, RTR,
CHTx, CHRx, DRAK, EXT, RAK. -/
def flagsOf (idcmd mptr lsta : Byte) : List Bool :=
  [unpackRnw idcmd, unpackRtr idcmd, unpackChtx lsta, unpackChrx lsta, unpackDrak mptr, unpackExt idcmd, unpackRak idcmd]

/-- "For every Exchange Mode, encoding must produce exactly the (RNW,RTR,CHTx,CHRx,DRAK,EXT,RAK) tuple in the §4.3 table,
independent of identifier or length values": the table of R101, its flags, its pointer formulas and which modes carry an
outgoing payload; RAK is the caller's for Transmit alone, and Disable writes only zeros, so all its flags are 0. For operands
outside the document's domain the pointers wrap modulo 256, the spec's own choice (92 D10, D15; log 5, log 23); so are the staging
frame for every length (D17), the kind and order of the register writes (D16) and the six single writes of Disable (D18). -/
def Obligations.ModeFlagsAreTheTable : Prop :=
  (∀ (id2 : Nibble) (rak : Bool) (len ptr : Byte),
    let flags (o : Opcode) : List Bool :=
      flagsOf (modeIdcmd (modeRow o) id2 rak) (modeMptr (modeRow o) ptr) (modeLsta (modeRow o) len)
    flags .chtx = [false, false, false, false, false, true, rak] ∧
    flags .chrx = [false, true, false, false, true, true, false] ∧
    flags .chrrn = [true, true, false, false, true, true, false] ∧
    flags .chrr = [true, true, false, false, true, true, false] ∧
    flags .chir = [true, false, false, false, false, true, false] ∧
    flags .chdr = [true, false, false, true, true, true, false] ∧
    flags .chrrd = [true, false, true, false, true, true, false]) ∧
  (∀ ch len : Byte, messagePointer (modeRow .chtx) ch len = 127 - (len + 1) ∧
    ∀ o ∈ [Opcode.chrx, .chrrn, .chrr, .chir, .chdr, .chrrd], messagePointer (modeRow o) ch len = ch * 30) ∧
  (∀ (s : State) (o : Opcode), s.configureFrames (modeRow o) =
    if o ∈ [Opcode.chtx, .chir, .chdr] then s.stagingFrame :: s.registerFrames else s.registerFrames) ∧
  (∀ s : State, s.disableFrames.map Frame.data = List.replicate 6 (some 0)) ∧
  flagsOf 0 0 0 = List.replicate 7 false

/-- "pointer equals `channelIndex*30` for every channel index in [0,7]" and for Transmit `127 - (L+1)`; the field written
is the pointer's low 7 bits, which for channels 5, 6, 7 are 22, 52, 82 (R105). -/
def Obligations.PointerValueAndField : Prop :=
  (∀ (o : Opcode) (ch len : Byte), o ∈ [.chrx, .chrrn, .chrr, .chir, .chdr, .chrrd] → ch.toNat ≤ 7 →
    (messagePointer (modeRow o) ch len).toNat = 30 * ch.toNat) ∧
  (∀ ch len : Byte, len.toNat ≤ 126 → (messagePointer (modeRow .chtx) ch len).toNat = 126 - len.toNat) ∧
  (∀ (o : Opcode) (ptr : Byte), (stripDrak (modeMptr (modeRow o) ptr)).toNat = ptr.toNat % 128) ∧
  (∀ (o : Opcode) (len : Byte), o ∈ [.chrx, .chrrn, .chrr, .chir, .chdr, .chrrd] →
    (∀ ch : Byte, ch.toNat ≤ 4 →
      stripDrak (modeMptr (modeRow o) (messagePointer (modeRow o) ch len)) = messagePointer (modeRow o) ch len) ∧
    stripDrak (modeMptr (modeRow o) (messagePointer (modeRow o) 5 len)) = 22 ∧
    stripDrak (modeMptr (modeRow o) (messagePointer (modeRow o) 6 len)) = 52 ∧
    stripDrak (modeMptr (modeRow o) (messagePointer (modeRow o) 7 len)) = 82)

/-- "The Transmit pointer does not depend on `ch`": the staged payload of every CHTX ends at the same mailbox address,
offset 126, so that two of them overwrite the mailbox offsets `127 - min(L1, L2)` to 126 (R119). -/
def Obligations.TransmitScratchIsShared : Prop :=
  (∀ ch ch' len : Byte, messagePointer (modeRow .chtx) ch len = messagePointer (modeRow .chtx) ch' len) ∧
  (∀ ch len : Byte, len.toNat ≤ 126 →
    (mbaddr (messagePointer (modeRow .chtx) ch len + 1)).toNat + len.toNat = 0x80 + 127) ∧
  (∀ (ch₁ ch₂ len₁ len₂ : Byte) (off : Nat), len₁.toNat ≤ 126 → len₂.toNat ≤ 126 →
    127 - min len₁.toNat len₂.toNat ≤ off → off ≤ 126 →
    ∃ j₁ j₂, j₁ < len₁.toNat ∧ j₂ < len₂.toNat ∧
      (mbaddr (messagePointer (modeRow .chtx) ch₁ len₁ + 1)).toNat + j₁ = 0x80 + off ∧
      (mbaddr (messagePointer (modeRow .chtx) ch₂ len₂ + 1)).toNat + j₂ = 0x80 + off)

/-! ## The operations: what each does, from every state that is ready -/

/-- WRREG: one write frame; the value is sent whatever is returned; latches A, C, N, RX and DBUF[0]; no result (R72). -/
def Obligations.WrregResult : Prop :=
  ∀ (s : State) (a v : Byte), s.Ready →
    ∃ t, exec (.wrreg a v) s = .next t ∧ Performed s.cfg.cmdWrite [⟨a, [v]⟩] s t ∧
      t.a = a ∧ t.c = s.cfg.cmdWrite ∧ t.n = 1 ∧ t.rx = s.answer 2 ∧
      t.dbuf.read 0 = v ∧ (∀ j, j ≠ 0 → t.dbuf.read j = s.dbuf.read j) ∧ SameResult s t

/-- WRBLK: one write frame that streams the payload, its count 0 to 255; the address is sent once (R73). -/
def Obligations.WrblkResult : Prop :=
  ∀ (s : State) (a : Byte) (d : List Byte), s.Ready → d.length ≤ 255 →
    ∃ t, exec (.wrblk a d) s = .next t ∧ Performed s.cfg.cmdWrite [⟨a, d⟩] s t ∧
      t.a = a ∧ t.c = s.cfg.cmdWrite ∧ t.n.toNat = d.length ∧ t.rx = s.answer (1 + d.length) ∧
      (∀ j, t.dbuf.read j = (d[j]?).getD (s.dbuf.read j)) ∧ SameResult s t

/-- RDREG: one read frame with one filler 0xFF; the byte the filler's exchange returns is delivered, also after a
mismatch (R74). -/
def Obligations.RdregResult : Prop :=
  ∀ (s : State) (a : Byte), s.Ready →
    ∃ t, exec (.rdreg a) s = .next t ∧ Performed s.cfg.cmdRead [⟨a, [0xFF]⟩] s t ∧
      t.a = a ∧ t.c = s.cfg.cmdRead ∧ t.n = 1 ∧ t.rx = s.answer 2 ∧
      Delivered [s.answer 2] t ∧ ∀ j, t.dbuf.read j = s.dbuf.read j

/-- RDBLK: one read frame with `n` fillers, every one 0xFF; each returned byte is delivered, `RLEN = n` (R75). -/
def Obligations.RdblkResult : Prop :=
  ∀ (s : State) (a n : Byte), s.Ready →
    ∃ t, exec (.rdblk a n) s = .next t ∧ Performed s.cfg.cmdRead [⟨a, List.replicate n.toNat 0xFF⟩] s t ∧
      t.a = a ∧ t.c = s.cfg.cmdRead ∧ t.n = n ∧ t.rx = s.answer (1 + n.toNat) ∧
      Delivered ((List.range n.toNat).map fun k => s.answer (k + 2)) t ∧ ∀ j, t.dbuf.read j = s.dbuf.read j

/-- The six writes of CHDIS `(address, 0x00)`, in order (R110). -/
def disableWrites (p : Params) (ch : Byte) : List (Byte × Byte) :=
  [p.offIdtag, p.offIdcmd, p.offMptr, p.offLsta, p.offMask0, p.offMask1].map fun k => (chreg p ch k, 0)

/-- CHDIS: six single writes of 0x00, the four registers and the two mask bytes; no mailbox byte, no result (R110; order
and kind of the writes: 92 D18). -/
def Obligations.ChdisResult : Prop :=
  ∀ (s : State) (ch : Byte), s.Ready →
    ∃ t, exec (.chdis ch) s = .next t ∧ Performed s.cfg.cmdWrite (singles (disableWrites s.cfg ch)) s t ∧
      t.ch = ch ∧ SameResult s t

/-- The four register writes of Configure `(address, value)`, length + status last (R102). -/
def registerWrites (p : Params) (ch i1 idcmd mptr lsta : Byte) : List (Byte × Byte) :=
  [(chreg p ch p.offIdtag, i1), (chreg p ch p.offIdcmd, idcmd), (chreg p ch p.offMptr, mptr),
    (chreg p ch p.offLsta, lsta)]

/-- CHTX: the payload staged at `MBADDR(127 - L)` before the four register writes; pointer `127 - (L+1)`, DRAK 0, EXT 1, RAK
the caller's, RNW, RTR, CHER, CHTx, CHRx 0 (R111; kind and order of the writes: 92 D16, D17). -/
def Obligations.ChtxResult : Prop :=
  ∀ (s : State) (ch i1 : Byte) (i2 : Nibble) (rak : Bool) (d : List Byte), s.Ready → d.length ≤ 255 →
    let ml := BitVec.ofNat 8 (d.length + 1)
    let ptr := 127 - ml
    ∃ t, exec (.chtx ch i1 i2 rak d) s = .next t ∧
      Performed s.cfg.cmdWrite
        (⟨mbaddr (ptr + 1), d⟩ :: singles (registerWrites s.cfg ch i1 (packIDCMD i2 true rak false false)
          (packMPTR false ptr) (packLSTA ml false false false))) s t ∧
      t.ch = ch ∧ t.id1 = i1 ∧ t.id2 = i2 ∧ t.len.toNat = d.length ∧ t.rakl = rak ∧ t.ptr = ptr ∧
      t.bIdcmd = packIDCMD i2 true rak false false ∧ t.bMptr = packMPTR false ptr ∧
      t.bLsta = packLSTA ml false false false ∧ SameResult s t

/-- What one of the six `c*30` operations leaves in the latches: the operands, the full 8-bit pointer and the three packed
bytes (R11, R102). -/
def ConfiguredLatches (ch i1 : Byte) (i2 : Nibble) (len idcmd mptr lsta : Byte) (t : State) : Prop :=
  t.ch = ch ∧ t.id1 = i1 ∧ t.id2 = i2 ∧ t.len = len ∧ t.ptr = ch * 30 ∧ t.bIdcmd = idcmd ∧ t.bMptr = mptr ∧ t.bLsta = lsta

/-- CHRX, CHRRN, CHRR and CHRRD: four register writes and nothing else; pointer `ch * 30`, DRAK 1, EXT 1, RAK 0, CHER 0, and
the flags of each mode's row; CH, ID1, ID2, LEN, PTR and the packed bytes loaded (R11, R112, R113, R114, R117; kind and order of
the writes: 92 D16). -/
def Obligations.PlainConfigureResult : Prop :=
  ∀ (s : State) (ch i1 : Byte) (i2 : Nibble) (len : Byte), s.Ready →
    let done (i : Instr) (rnw rtr chtx : Bool) : Prop :=
      let idcmd := packIDCMD i2 true false rnw rtr
      let mptr := packMPTR true (ch * 30)
      let lsta := packLSTA (len + 1) false chtx false
      ∃ t, exec i s = .next t ∧ Performed s.cfg.cmdWrite (singles (registerWrites s.cfg ch i1 idcmd mptr lsta)) s t ∧
        ConfiguredLatches ch i1 i2 len idcmd mptr lsta t ∧ SameResult s t
    done (.chrx ch i1 i2 len) false true false ∧ done (.chrrn ch i1 i2 len) true true false ∧
    done (.chrr ch i1 i2 len) true true false ∧ done (.chrrd ch i1 i2 len) true false true

/-- CHIR and CHDR: the payload staged at `MBADDR(ch*30 + 1)`, from the full 8-bit pointer, before the four register writes; CHIR
writes DRAK 0 and CHRx 0, CHDR DRAK 1 and CHRx 1; CH, ID1, ID2, LEN, PTR and the packed bytes loaded (R11, R115, R116, R106; kind
and order of the writes: 92 D16, D17). -/
def Obligations.StagedReplyResult : Prop :=
  ∀ (s : State) (ch i1 : Byte) (i2 : Nibble) (d : List Byte), s.Ready → d.length ≤ 255 →
    let done (i : Instr) (drak chrx : Bool) : Prop :=
      let len := BitVec.ofNat 8 d.length
      let idcmd := packIDCMD i2 true false true false
      let mptr := packMPTR drak (ch * 30)
      let lsta := packLSTA (len + 1) false false chrx
      ∃ t, exec i s = .next t ∧
        Performed s.cfg.cmdWrite
          (⟨mbaddr (ch * 30 + 1), d⟩ :: singles (registerWrites s.cfg ch i1 idcmd mptr lsta)) s t ∧
        ConfiguredLatches ch i1 i2 len idcmd mptr lsta t ∧ SameResult s t
    done (.chir ch i1 i2 d) false false ∧ done (.chdr ch i1 i2 d) true true

/-- RDMSG: the two identifier bytes, the pointer byte, the status byte at the mailbox offset the pointer byte names with DRAK
stripped, then as many payload bytes as the status byte's low five bits say, from `ch*30 + 1`; delivered are the two identifier
bytes raw and the payload, `RLEN = n + 2` (R131, R133; the split into single reads and one block read: 92 D19). -/
def Obligations.RdmsgResult : Prop :=
  ∀ (s : State) (ch : Byte), s.Ready →
    let off := s.answer 8 &&& 0x7F
    let n := (s.answer 11).toNat % 32
    ∃ t, exec (.rdmsg ch) s = .next t ∧
      Performed s.cfg.cmdRead
        [⟨chreg s.cfg ch s.cfg.offIdtag, [0xFF]⟩, ⟨chreg s.cfg ch s.cfg.offIdcmd, [0xFF]⟩,
          ⟨chreg s.cfg ch s.cfg.offMptr, [0xFF]⟩, ⟨mbaddr off, [0xFF]⟩,
          ⟨mbaddr (ch * 30 + 1), List.replicate n 0xFF⟩] s t ∧
      Delivered (s.answer 2 :: s.answer 5 :: (List.range n).map fun k => s.answer (14 + k)) t ∧
      t.rlen.toNat = n + 2 ∧ ∀ j, t.dbuf.read j = s.dbuf.read j

/-- LASTCH: one read frame at A_LASTMSG; delivered is its 3-bit field at `LASTCH_LSB`, in 0..7, the other bits
discarded (R132; the field's position is open, 92 D20). -/
def Obligations.LastchResult : Prop :=
  ∀ s : State, s.Ready →
    let v := BitVec.ofNat 8 ((s.answer 2).toNat / 2 ^ s.cfg.lastchLsb % 8)
    ∃ t, exec .lastch s = .next t ∧ Performed s.cfg.cmdRead [⟨s.cfg.aLastmsg, [0xFF]⟩] s t ∧
      Delivered [v] t ∧ v.toNat ≤ 7 ∧ ∀ j, t.dbuf.read j = s.dbuf.read j

/-- RDERR: delivered are the `ERRCNT_W / 8` bytes whose value, the most significant first, is ERRCNT; beside the result, OP, CSTAT
and the sequencer's return to `(0, IDLE, 0)` nothing changes: no link event, ERRCNT, SELLINE and every other latch as they were
(R140; its form: 92 D8). It needs no premise on the Transport: it cannot be held. -/
def Obligations.RderrResult : Prop :=
  ∀ s : State, s.cfg.wf = true → s.ErrcntInRange → s.busy = false →
    ∃ (t : State) (bs : List Byte), exec .rderr s = .next t ∧ bs.length = s.cfg.errcntW / 8 ∧
      bs.foldl (fun acc b => 256 * acc + b.toNat) 0 = s.errcnt ∧ Delivered bs t ∧
      t = { s with
        op := 0x30
        cstat := .ok
        mstep := 0
        ph := .idle
        i := 0
        rbuf := t.rbuf
        rlen := t.rlen
        epoch := t.epoch }

/-! ## The one error -/

/-- "`raise HandshakeMismatch(phase)` is exactly `ERRCNT <- (ERRCNT + 1) mod 2^ERRCNT_W`. It changes no other state": the
increment takes place with the exchange that failed, before any other link event, and where the exchange returns the expected
byte there is none; the way on is the same in both cases, and the operation stays in progress (R151). That the byte compared is
the one the same exchange returns is the spec's own reading of "echoed" (R53, 92 D5; log 5). -/
def Obligations.MismatchOnlyCounts : Prop :=
  (∀ (s : State) (phase : MismatchPhase),
    s.raiseHandshakeMismatch phase = { s with errcnt := (s.errcnt + 1) % 2 ^ s.cfg.errcntW }) ∧
  (∀ s : State, s.ph = .addr → s.tick =
    { s with
      ph := .wAddr
      rx := s.answer 0
      trace := s.trace ++ [.x s.a (s.answer 0)]
      transport := s.transport.completeExchange
      errcnt := if s.answer 0 = s.cfg.addrAck then s.errcnt else (s.errcnt + 1) % 2 ^ s.cfg.errcntW }) ∧
  (∀ s : State, s.ph = .cmd → s.tick =
    { s with
      ph := .wCmd
      rx := s.answer 0
      trace := s.trace ++ [.x s.c (s.answer 0)]
      transport := s.transport.completeExchange
      errcnt := if s.answer 0 = s.cfg.cmdAck then s.errcnt else (s.errcnt + 1) % 2 ^ s.cfg.errcntW })

/-- "A transaction raises `ERRCNT` by the number of its two checks that fail: 0, 1 or 2, never more", and "The payload exchanges
are not checked": the two checks are of the first two bytes returned, whatever the others are (R78; that it is these two bytes is
the spec's own reading, 92 D5; log 5). -/
def Obligations.TransactionCountsItsTwoChecks : Prop :=
  ∀ (s : State) (i : Instr), s.Ready → i.wf = true → i.opcode ∈ [.wrreg, .wrblk, .rdreg, .rdblk] →
    ∃ t m, exec i s = .next t ∧ t.errcnt = (s.errcnt + m) % 2 ^ s.cfg.errcntW ∧ m ≤ 2 ∧
      m = (if s.answer 0 = s.cfg.addrAck then 0 else 1) + (if s.answer 1 = s.cfg.cmdAck then 0 else 1)

/-- How many frames an operation has (R152's table). -/
def frameCount : Instr → Nat
  | .wrreg _ _ => 1
  | .wrblk _ _ => 1
  | .rdreg _ => 1
  | .rdblk _ _ => 1
  | .chdis _ => 6
  | .chtx _ _ _ _ _ => 5
  | .chrx _ _ _ _ => 4
  | .chrrn _ _ _ _ => 4
  | .chrr _ _ _ _ => 4
  | .chir _ _ _ _ => 5
  | .chdr _ _ _ _ => 5
  | .chrrd _ _ _ _ => 4
  | .rdmsg _ => 5
  | .lastch => 1
  | .rderr => 0

/-- An operation raises ERRCNT by the number of failed checks among the events it appends to the link trace, hence by zero "on an
all-correct exchange" (R151), and that number is at most twice its number of frames (R78, R152's table; which bytes are checked:
92 D5, log 5). -/
def Obligations.OperationRaisesCounterByAtMostTwiceItsFrames : Prop :=
  ∀ (s : State) (i : Instr), s.Ready → i.wf = true →
    ∃ t x, exec i s = .next t ∧ t.trace = s.trace ++ x ∧
      t.errcnt = (s.errcnt + failedChecks s.cfg .nothing x) % 2 ^ s.cfg.errcntW ∧
      failedChecks s.cfg .nothing x ≤ 2 * frameCount i

/-- What the block itself puts on the link: the trace without the returned bytes (R76). -/
def sentView (t : List LinkEvent) : List LinkEvent :=
  t.map fun e =>
    match e with
    | .x b _ => .x b 0
    | .sel => .sel
    | .dly n => .dly n
    | .desel => .desel

/-- Fire and count: what is sent "does not depend on any returned byte. Only `ERRCNT` and, for reads, the delivered data depend on
returned bytes" (from R76). Two blocks that differ only in what the Transport returns and in the counter send the same and end alike
but for the counter, RX, the returned bytes in the history, and, where the operation delivers, the bytes delivered. Every operation
but RDMSG, whose later addresses and count are bytes it has read. That the latches and results of earlier operations do not enter
either is `LatchesCarryNothingBetweenOperations`. -/
def Obligations.SentBytesIgnoreReturnedBytes : Prop :=
  ∀ (s : State) (i : Instr) (answers : List Byte) (k e : Nat), s.Ready → i.wf = true → i.opcode ≠ .rdmsg →
    e < 2 ^ s.cfg.errcntW →
    ∃ t t', exec i s = .next t ∧
      exec i { s with transport := ⟨answers, k, none⟩, errcnt := e } = .next t' ∧
      sentView t.trace = sentView t'.trace ∧
      t' = { t with
        errcnt := t'.errcnt
        rx := t'.rx
        trace := t'.trace
        transport := t'.transport
        r := t'.r
        rbuf := t'.rbuf } ∧
      (i.opcode ∉ [.rdreg, .rdblk, .lastch, .rderr] → t'.r = t.r ∧ t'.rbuf = t.rbuf)

/-- "It is incremented by one, modulo `2^ERRCNT_W`, for each handshake mismatch ... and by nothing else. No operation decrements or
clears it; only reset" (R14, R142): a step whose move is not reset, of any operation, held before or after or not, adds to ERRCNT
exactly the failed checks among the events it appends to the link trace. So a step that appends no failed check leaves it as it
is (which bytes are checked: 92 D5, log 5). -/
def Obligations.OnlyResetClearsTheCounter : Prop :=
  ∀ s t : State, s.ErrcntInRange → s.inputs.head? ≠ some .reset → step s = .next t →
    ∃ x, t.trace = s.trace ++ x ∧ t.errcnt = (s.errcnt + failedChecks s.cfg s.expected x) % 2 ^ s.cfg.errcntW

/-! ## What operations leave alone, held or not -/

/-- The primitive operations, LASTCH and RDERR write no channel latch and no intermediate value of RDMSG (R11, R72 to R75, R132,
R140). -/
def Obligations.NonChannelOperationsFrame : Prop :=
  ∀ (s t : State) (i : Instr), i.opcode ∈ [.wrreg, .wrblk, .rdreg, .rdblk, .lastch, .rderr] → exec i s = .next t →
    t.ch = s.ch ∧ t.id1 = s.id1 ∧ t.id2 = s.id2 ∧ t.len = s.len ∧ t.rakl = s.rakl ∧ t.ptr = s.ptr ∧
    t.bIdcmd = s.bIdcmd ∧ t.bMptr = s.bMptr ∧ t.bLsta = s.bLsta ∧ t.b0 = s.b0 ∧ t.b1 = s.b1 ∧ t.p = s.p ∧
    t.sta = s.sta ∧ t.inputs = s.inputs ∧ t.cfg = s.cfg

/-- The channel operations write CH; CHDIS none of the identifier, length, pointer and packed latches; only CHTX writes RAKL; none
an intermediate value of RDMSG. RDMSG writes CH and PTR and its intermediate values of these alone (R11, R102, R110, R131). -/
def Obligations.ChannelOperationsFrame : Prop :=
  ∀ (s t : State),
    (∀ ch, exec (.chdis ch) s = .next t → t.ch = ch ∧ t.id1 = s.id1 ∧ t.id2 = s.id2 ∧ t.len = s.len ∧
      t.ptr = s.ptr ∧ t.bIdcmd = s.bIdcmd ∧ t.bMptr = s.bMptr ∧ t.bLsta = s.bLsta) ∧
    (∀ i : Instr, i.opcode ∈ [.chdis, .chrx, .chrrn, .chrr, .chir, .chdr, .chrrd, .rdmsg] → exec i s = .next t →
      t.rakl = s.rakl) ∧
    (∀ i : Instr, i.opcode ∈ [.chdis, .chtx, .chrx, .chrrn, .chrr, .chir, .chdr, .chrrd] → exec i s = .next t →
      t.b0 = s.b0 ∧ t.b1 = s.b1 ∧ t.p = s.p ∧ t.sta = s.sta ∧ t.inputs = s.inputs ∧ t.cfg = s.cfg) ∧
    (∀ ch, exec (.rdmsg ch) s = .next t → t.ch = ch ∧ t.id1 = s.id1 ∧ t.id2 = s.id2 ∧ t.len = s.len ∧
      t.bIdcmd = s.bIdcmd ∧ t.bMptr = s.bMptr ∧ t.bLsta = s.bLsta ∧ t.inputs = s.inputs ∧ t.cfg = s.cfg)

/-- "Operations that return nothing leave `RBUF` and `RLEN` unchanged" (R16), at every element and whether or not the operation
is held. -/
def Obligations.WritersLeaveResultsUnchanged : Prop :=
  ∀ (s t : State) (i : Instr),
    i.opcode ∈ [.wrreg, .wrblk, .chdis, .chtx, .chrx, .chrrn, .chrr, .chir, .chdr, .chrrd] →
    exec i s = .next t → SameResult s t

/-- DBUF: an operation that reads, and RDERR, leave every element alone; an operation that writes leaves alone every element its
payload does not reach, but for element 0, which single writes load (R11, R57(d), R81). -/
def Obligations.DbufFrame : Prop :=
  ∀ (s t : State) (i : Instr), s.dbuf.wf = true → exec i s = .next t →
    (i.opcode ∈ [.rdreg, .rdblk, .rdmsg, .lastch, .rderr] → ∀ j, t.dbuf.read j = s.dbuf.read j) ∧
    (i.wf = true → ∀ j, j ≠ 0 → i.payload.length ≤ j → t.dbuf.read j = s.dbuf.read j)

/-! ## Relations between operations -/

/-- "for equal operands the two operations produce equal traces": CHRRN and CHRR lead to the same state but for the operation
code in OP, from every state, held or not (R120). -/
def Obligations.ChrrnAndChrrAgree : Prop :=
  ∀ (s : State) (ch i1 : Byte) (i2 : Nibble) (len : Byte),
    ∃ t : State, exec (.chrrn ch i1 i2 len) s = .next { t with op := 0x13 } ∧
      exec (.chrr ch i1 i2 len) s = .next { t with op := 0x14 }

/-- "Between operations only `ERRCNT`, `CSTAT`, `RBUF` and `RLEN` carry meaning", and "every value it needs from the target it
reads again over the link": two idle blocks that agree in the counter, the results, the history and what surrounds them, whatever
their latches hold from earlier operations, do the same to the link and deliver the same in every operation (R23). -/
def Obligations.LatchesCarryNothingBetweenOperations : Prop :=
  ∀ (s s' : State) (i : Instr), s.Ready → s'.Ready → i.wf = true →
    s'.errcnt = s.errcnt → s'.rbuf = s.rbuf → s'.rlen = s.rlen → s'.epoch = s.epoch → s'.trace = s.trace →
    s'.transport = s.transport → s'.cfg = s.cfg →
    ∃ t t', exec i s = .next t ∧ exec i s' = .next t' ∧
      t'.trace = t.trace ∧ t'.errcnt = t.errcnt ∧ t'.rbuf = t.rbuf ∧ t'.rlen = t.rlen ∧ t'.epoch = t.epoch ∧
      t'.transport = t.transport ∧ t'.busy = t.busy ∧ t'.cstat = t.cstat

/-- "two successive CHDIS of the same channel produce the same sequence of sent bytes", and each sends 0x00 to the six
addresses (R118, R110). -/
def Obligations.DisableTwiceSendsTheSame : Prop :=
  ∀ (s : State) (ch : Byte), s.Ready →
    ∃ t u, exec (.chdis ch) s = .next t ∧ exec (.chdis ch) t = .next u ∧
      ∃ x y, t.trace = s.trace ++ x ∧ u.trace = t.trace ++ y ∧ sentView x = sentView y ∧
        sentView x = framesTrace s.cfg s.cfg.cmdWrite (singles (disableWrites s.cfg ch)) fun _ => 0

/-- An operation with `F` frames and `P` payload bytes performs `2F + P` exchanges and, where no duration is 0, passes
`4F + P` delay slots (R188). RDMSG's `P` is the byte it reads and is left to `RdmsgResult`. -/
def Obligations.ExchangeAndSlotCounts : Prop :=
  ∀ (s : State) (i : Instr) (n : Nat), s.Ready → i.wf = true →
    ((i.opcode ∈ [.wrreg, .rdreg, .lastch] ∧ n = 1) ∨ (i.opcode = .wrblk ∧ n = i.payload.length) ∨
      (∃ a c, i = .rdblk a c ∧ n = c.toNat) ∨ (i.opcode = .chdis ∧ n = 6) ∨
      (i.opcode ∈ [.chrx, .chrrn, .chrr, .chrrd] ∧ n = 4) ∨
      (i.opcode ∈ [.chtx, .chir, .chdr] ∧ n = 4 + i.payload.length) ∨ (i = .rderr ∧ n = 0)) →
    ∃ t x, exec i s = .next t ∧ t.trace = s.trace ++ x ∧
      x.countP (fun e => match e with | .x _ _ => true | _ => false) = 2 * frameCount i + n ∧
      (s.cfg.tSel ≠ 0 → s.cfg.tAddr ≠ 0 → s.cfg.tCmd ≠ 0 → s.cfg.tData ≠ 0 → s.cfg.tDesel ≠ 0 →
        x.countP (fun e => match e with | .dly _ => true | _ => false) = 4 * frameCount i + n)

/-! ## Holds and reset -/

/-- A block is held exactly when it is busy, the Transport completes nothing more, and it stands at an exchange or at a delay whose
duration is not 0 (R17, R79). With no move of its surroundings it stays as it is for good, BUSY 1; a descriptor presented to it
changes nothing (93 U8; log 11); in a sound state SELLINE is 1 but where it waits out the delay after `Deselect()` (R15). -/
def Obligations.HeldBlockWaitsForTheTransport : Prop :=
  (∀ s : State, s.held = true ↔ s.busy = true ∧ s.transport.credit = some 0 ∧
    ((s.ph = .addr ∨ s.ph = .cmd ∨ s.ph = .data) ∨ (s.ph = .wSel ∧ s.cfg.tSel ≠ 0) ∨
      (s.ph = .wAddr ∧ s.cfg.tAddr ≠ 0) ∨ (s.ph = .wCmd ∧ s.cfg.tCmd ≠ 0) ∨ (s.ph = .wData ∧ s.cfg.tData ≠ 0) ∨
      (s.ph = .wDesel ∧ s.cfg.tDesel ≠ 0))) ∧
  (∀ s : State, s.held = true → s.inputs = [] → step s = .next s) ∧
  (∀ (s : State) (d : List Byte) (rest : List Input), s.held = true → s.inputs = .present d :: rest →
    step s = .next { s with inputs := rest }) ∧
  (∀ s : State, s.Inv → s.held = true → (s.selline = true ↔ s.ph ≠ .wDesel))

/-- An operation runs until it ends or is held, from every state: the model's bound on the moves of one step is never what
stops it (R79, R80; log 3). -/
def Obligations.ResumeEndsIdleOrHeld : Prop :=
  ∀ s : State, s.resume.busy = false ∨ s.resume.held = true

/-- A hold changes nothing but when things happen: an operation that is held and then goes on, the Transport completing
everything, ends in the state it reaches when it is never held (R17, R76, R79; log 4). -/
def Obligations.HoldThenGoOnIsNoHold : Prop :=
  ∀ (s t u : State) (i : Instr), exec i s = .next t →
    exec i { s with transport := { s.transport with credit := none } } = .next u →
    t.takeTransport none = u

/-- CHTX, CHIR or CHDR is in progress, or has just ended, with what the link shows, beyond `base`, a beginning of the staging frame
followed by the four register frames, `d` the payload and `ans` the bytes returned; the operation has ended exactly when all of it
is shown, and all of it is what the link will show when the Transport completes everything. -/
def StagedLink (base : List LinkEvent) (d : List Byte) (ans : Nat → Byte) (s : State) : Prop :=
  let whole := base ++ framesTrace s.cfg s.cfg.cmdWrite
    (⟨mbaddr (s.ptr + 1), d⟩ :: singles (registerWrites s.cfg s.ch s.id1 s.bIdcmd s.bMptr s.bLsta)) ans
  s.opcode ∈ [some Opcode.chtx, some .chir, some .chdr] ∧ s.trace <+: whole ∧ (s.busy = false ↔ s.trace = whole) ∧
    (s.takeTransport none).trace = whole

/-- Payload before configuration, at every hold: CHTX, CHIR and CHDR begin with `StagedLink`, whether or not their first step ends
in a hold, and every later step of the operation but reset keeps it, however often the Transport holds the block again. So the
staging frame's `DESEL` always precedes the first register write's `SEL` (R103, R102; kind and order of the writes: 92 D16,
D17). What the link shows of a block that is held rests on log 4: the event of an exchange under way is not shown yet. -/
def Obligations.StagedBeforeConfigured : Prop :=
  (∀ (s t : State) (i : Instr) (ch i1 : Byte) (i2 : Nibble) (d : List Byte),
    s.busy = false → s.dbuf.wf = true → d.length ≤ 255 →
    ((∃ rak, i = .chtx ch i1 i2 rak d) ∨ i = .chir ch i1 i2 d ∨ i = .chdr ch i1 i2 d) → exec i s = .next t →
    t.ch = ch ∧ t.id1 = i1 ∧ StagedLink s.trace d s.answer t) ∧
  (∀ (base : List LinkEvent) (d : List Byte) (ans : Nat → Byte) (s t : State),
    StagedLink base d ans s → s.busy = true → s.inputs.head? ≠ some .reset → step s = .next t →
    StagedLink base d ans t)

/-- Reset, at any moment, in a scope or not: the values of R22's table, no link event of its own, the operation abandoned; the
Transport and the target are not reset (R22, R170, R171, R172; 92 D22). The latches R22 leaves unspecified are not spoken of. -/
def Obligations.ResetLeavesTheTableOfValues : Prop :=
  (∀ (s : State) (rest : List Input), s.inputs = .reset :: rest →
    ∃ t, step s = .next t ∧ t.errcnt = 0 ∧ t.mstep = 0 ∧ t.ph = .idle ∧ t.i = 0 ∧ t.busy = false ∧ t.cstat = .ok ∧
      t.selline = false ∧ t.rlen = 0 ∧ t.trace = [] ∧ t.transport = s.transport ∧ t.inputs = rest ∧ t.cfg = s.cfg) ∧
  (State.reset.errcnt = 0 ∧ State.reset.mstep = 0 ∧ State.reset.ph = .idle ∧ State.reset.i = 0 ∧
    State.reset.busy = false ∧ State.reset.cstat = .ok ∧ State.reset.selline = false ∧ State.reset.rlen = 0 ∧
    State.reset.trace = [])

/-! ## The whole machine -/

/-- No operation and no step faults or is refused: "There is no other recognized error condition" (R154, R156, R157,
R160). -/
def Obligations.NothingFaultsOrIsRefused : Prop :=
  (∀ (i : Instr) (s : State), ∃ t, exec i s = .next t) ∧ ∀ s : State, ∃ t, step s = .next t

/-- The invariant holds at reset. -/
def Obligations.ResetIsSound : Prop := State.reset.Inv

/-- Every step keeps the invariant: the buffers canonical, ERRCNT within its width, the sequencer at `(0, IDLE, 0)` whenever the
block is not busy, SELLINE 1 exactly inside a scope, scopes never overlapping or nesting and nothing sent outside one, and the
block idle or held between steps (R12, R14, R15, R17, R176). -/
def Obligations.EveryStepKeepsTheInvariant : Prop :=
  ∀ s t : State, s.Inv → step s = .next t → t.Inv

/-- No step changes a parameter: they are "configuration, fixed for a run" (R10, R5). -/
def Obligations.ParametersNeverChange : Prop :=
  ∀ s t : State, step s = .next t → t.cfg = s.cfg

/-- The history only grows, but for reset, which empties it (R18, R22). -/
def Obligations.TraceOnlyGrows : Prop :=
  ∀ s t : State, s.inputs.head? ≠ some .reset → step s = .next t → s.trace <+: t.trace

/-- The pseudo-operation CHDISALL and the caller's bring-up: "`CHDIS 0; CHDIS 1; ...; CHDIS 7` in that order" (R61), after the
mode writes of BRINGUP (R173; the orders are the spec's own choice, 92 D3, D29). -/
def Obligations.BringUpSequence : Prop :=
  chdisall = [.chdis 0, .chdis 1, .chdis 2, .chdis 3, .chdis 4, .chdis 5, .chdis 6, .chdis 7] ∧
  ∀ p : Params, bringUp p = p.bringup.map (fun av => .wrreg av.1 av.2) ++ chdisall
end

