-- ==== Sys2Proof/Laws/Memory.lean ====
section
/-! SUPPORT. The buffers: reading after writing, and that every buffer operation keeps the canonical form. -/

namespace Sys2Proof.Machine

/-! ## The canonical form -/

/-- The canonical form, element by element. -/
theorem Memory.wf_iff (m : Memory) :
    m.wf = true ↔ m.Pairwise (fun x y => x.1 < y.1) ∧ ∀ x ∈ m, x.1 < bufferSize ∧ x.2 ≠ Memory.unlisted := by
  simp [Memory.wf]

theorem Memory.wf_nil : Memory.wf [] = true := by decide

/-- A cell of a written buffer is the one written or was there before. -/
theorem Memory.mem_write {m : Memory} {a : Nat} {v : Byte} {x : Host.Cell} (h : x ∈ Memory.write m a v) :
    (x = (a, v) ∧ v ≠ Memory.unlisted) ∨ x ∈ m := by
  induction m with
  | nil => by_cases hv : v = Memory.unlisted <;> simp_all [Memory.write]
  | cons c m ih =>
    obtain ⟨b, w⟩ := c
    simp only [Memory.write] at h
    split at h
    · split at h <;> simp_all
    · split at h
      · split at h <;> simp_all
        rcases h with h | h <;> simp_all
      · rcases List.mem_cons.mp h with h | h
        · exact .inr (h ▸ List.mem_cons_self)
        · exact (ih h).imp_right (List.mem_cons_of_mem _)

/-- A write to an element that exists keeps the canonical form. -/
theorem Memory.write_wf {m : Memory} {a : Nat} {v : Byte} (ha : a < bufferSize) (h : m.wf = true) :
    (Memory.write m a v).wf = true := by
  rw [Memory.wf_iff] at h ⊢
  refine ⟨?_, fun x hx => ?_⟩
  · replace h := h.1
    induction m with
    | nil => by_cases hv : v = Memory.unlisted <;> simp [Memory.write, hv]
    | cons c m ih =>
      obtain ⟨b, w⟩ := c
      have hc := List.pairwise_cons.mp h
      simp only [Memory.write]
      split
      next hab =>
        split
        · exact h
        · refine List.pairwise_cons.mpr ⟨fun y hy => ?_, h⟩
          rcases List.mem_cons.mp hy with rfl | hy
          · exact hab
          · exact Nat.lt_trans hab (hc.1 y hy)
      next hab =>
        split
        next heq =>
          split
          · exact hc.2
          · exact List.pairwise_cons.mpr ⟨fun y hy => heq ▸ hc.1 y hy, hc.2⟩
        next hne =>
          refine List.pairwise_cons.mpr ⟨fun y hy => ?_, ih hc.2⟩
          rcases Memory.mem_write hy with ⟨rfl, -⟩ | hy
          · show b < a
            omega
          · exact hc.1 y hy
  · rcases Memory.mem_write hx with ⟨rfl, hv⟩ | hx
    · exact ⟨ha, hv⟩
    · exact h.2 x hx

theorem Memory.writeFrom_wf {m : Memory} {a : Nat} {bs : List Byte} (ha : a + bs.length ≤ bufferSize)
    (h : m.wf = true) : (Memory.writeFrom m a bs).wf = true := by
  induction bs generalizing m a with
  | nil => exact h
  | cons b bs ih =>
    simp only [List.length_cons] at ha
    exact ih (by omega) (Memory.write_wf (by omega) h)

/-- Loading bytes keeps the canonical form, whatever their number. -/
theorem Memory.load_wf {m : Memory} {bs : List Byte} (h : m.wf = true) : (Memory.load m bs).wf = true :=
  Memory.writeFrom_wf (by simp) h

/-! ## Reading after writing -/

/-- The strict order of the cells makes a smaller index unlisted. -/
theorem Memory.read_of_lt {m : Memory} {a : Nat} (h : ∀ x ∈ m, a < x.1) : Memory.read m a = Memory.unlisted := by
  induction m with
  | nil => rfl
  | cons c m ih =>
    obtain ⟨b, w⟩ := c
    have hb : a < b := h (b, w) List.mem_cons_self
    simp only [Memory.read, if_neg (Nat.ne_of_lt hb)]
    exact ih fun x hx => h x (List.mem_cons_of_mem _ hx)

/-- A read after a write to another element: what was there. No canonical form is needed. -/
theorem Memory.read_write_other {m : Memory} {a a' : Nat} {v : Byte} (hne : a' ≠ a) :
    Memory.read (Memory.write m a v) a' = Memory.read m a' := by
  induction m with
  | nil => by_cases hv : v = Memory.unlisted <;> simp [Memory.write, Memory.read, hv, hne]
  | cons c m ih =>
    obtain ⟨b, w⟩ := c
    simp only [Memory.write]
    split
    · split
      · rfl
      · simp [Memory.read, hne]
    · split
      next h => subst h; split <;> simp [Memory.read, hne]
      · simp only [Memory.read, ih]

/-- A read after a write to the same element: the byte written. -/
theorem Memory.read_write_same {m : Memory} {a : Nat} {v : Byte}
    (h : m.Pairwise fun x y => x.1 < y.1) : Memory.read (Memory.write m a v) a = v := by
  induction m with
  | nil => by_cases hv : v = Memory.unlisted <;> simp [Memory.write, Memory.read, hv]
  | cons c m ih =>
    obtain ⟨b, w⟩ := c
    have hc := List.pairwise_cons.mp h
    simp only [Memory.write]
    split
    next hab =>
      split
      next hv =>
        rw [hv]
        refine Memory.read_of_lt fun x hx => ?_
        rcases List.mem_cons.mp hx with rfl | hx
        · exact hab
        · exact Nat.lt_trans hab (hc.1 x hx)
      · simp [Memory.read]
    next hab =>
      split
      next heq =>
        subst heq
        split
        next hv => rw [hv]; exact Memory.read_of_lt hc.1
        · simp [Memory.read]
      next hne => simp only [Memory.read, if_neg hne]; exact ih hc.2

theorem Memory.wf_pairwise {m : Memory} (h : m.wf = true) : m.Pairwise fun x y => x.1 < y.1 :=
  ((Memory.wf_iff m).mp h).1

/-- Reading after a run of bytes was stored from `a` on. -/
theorem Memory.read_writeFrom {m : Memory} {a : Nat} {bs : List Byte} (h : m.wf = true)
    (ha : a + bs.length ≤ bufferSize) (k : Nat) :
    Memory.read (Memory.writeFrom m a bs) k =
      if k < a then Memory.read m k else (bs[k - a]?).getD (Memory.read m k) := by
  induction bs generalizing m a with
  | nil => simp [Memory.writeFrom]
  | cons b bs ih =>
    simp only [List.length_cons] at ha
    rw [Memory.writeFrom, ih (Memory.write_wf (by omega) h) (by omega)]
    rcases Nat.lt_trichotomy k a with hk | rfl | hk
    · rw [if_pos (by omega), if_pos hk, Memory.read_write_other (by omega)]
    · simp [Memory.read_write_same (Memory.wf_pairwise h)]
    · rw [if_neg (by omega), if_neg (by omega), Memory.read_write_other (by omega)]
      obtain ⟨j, rfl⟩ : ∃ j, k = a + 1 + j := ⟨k - (a + 1), by omega⟩
      rw [show a + 1 + j - (a + 1) = j by omega, show a + 1 + j - a = j + 1 by omega, List.getElem?_cons_succ]

/-- Reading after a load: the loaded byte where there is one, what was there elsewhere. -/
theorem Memory.read_load {m : Memory} {bs : List Byte} (h : m.wf = true) (hl : bs.length ≤ bufferSize) (k : Nat) :
    Memory.read (Memory.load m bs) k = (bs[k]?).getD (Memory.read m k) := by
  rw [Memory.load, List.take_of_length_le hl, Memory.read_writeFrom h (by omega)]
  simp

/-- After reset both buffers list nothing, which is the canonical form. -/
theorem State.reset_buffersCanonical : State.reset.BuffersCanonical := by decide

/-- Delivering a result leaves a canonical result buffer. -/
theorem State.deliver_rbuf_wf (s : State) (bs : List Byte) : (s.deliver bs).rbuf.wf = true := Memory.load_wf Memory.wf_nil

end Sys2Proof.Machine
end

