-- ==== Sys2Proof/Laws/State.lean ====
section
/-! SUPPORT. One lemma per field and state operation: what the operation makes of the field. They let simp read a
field of an updated state without unfolding the update. -/

namespace Sys2Proof.Machine

/-! ## `State.record` -/

@[simp] theorem State.record_op (s : State) (e : LinkEvent) : (s.record e).op = s.op := rfl
@[simp] theorem State.record_a (s : State) (e : LinkEvent) : (s.record e).a = s.a := rfl
@[simp] theorem State.record_c (s : State) (e : LinkEvent) : (s.record e).c = s.c := rfl
@[simp] theorem State.record_n (s : State) (e : LinkEvent) : (s.record e).n = s.n := rfl
@[simp] theorem State.record_i (s : State) (e : LinkEvent) : (s.record e).i = s.i := rfl
@[simp] theorem State.record_dbuf (s : State) (e : LinkEvent) : (s.record e).dbuf = s.dbuf := rfl
@[simp] theorem State.record_ch (s : State) (e : LinkEvent) : (s.record e).ch = s.ch := rfl
@[simp] theorem State.record_id1 (s : State) (e : LinkEvent) : (s.record e).id1 = s.id1 := rfl
@[simp] theorem State.record_id2 (s : State) (e : LinkEvent) : (s.record e).id2 = s.id2 := rfl
@[simp] theorem State.record_len (s : State) (e : LinkEvent) : (s.record e).len = s.len := rfl
@[simp] theorem State.record_rakl (s : State) (e : LinkEvent) : (s.record e).rakl = s.rakl := rfl
@[simp] theorem State.record_ptr (s : State) (e : LinkEvent) : (s.record e).ptr = s.ptr := rfl
@[simp] theorem State.record_bIdcmd (s : State) (e : LinkEvent) : (s.record e).bIdcmd = s.bIdcmd := rfl
@[simp] theorem State.record_bMptr (s : State) (e : LinkEvent) : (s.record e).bMptr = s.bMptr := rfl
@[simp] theorem State.record_bLsta (s : State) (e : LinkEvent) : (s.record e).bLsta = s.bLsta := rfl
@[simp] theorem State.record_rx (s : State) (e : LinkEvent) : (s.record e).rx = s.rx := rfl
@[simp] theorem State.record_mstep (s : State) (e : LinkEvent) : (s.record e).mstep = s.mstep := rfl
@[simp] theorem State.record_ph (s : State) (e : LinkEvent) : (s.record e).ph = s.ph := rfl
@[simp] theorem State.record_busy (s : State) (e : LinkEvent) : (s.record e).busy = s.busy := rfl
@[simp] theorem State.record_cstat (s : State) (e : LinkEvent) : (s.record e).cstat = s.cstat := rfl
@[simp] theorem State.record_errcnt (s : State) (e : LinkEvent) : (s.record e).errcnt = s.errcnt := rfl
@[simp] theorem State.record_selline (s : State) (e : LinkEvent) : (s.record e).selline = s.selline := rfl
@[simp] theorem State.record_rbuf (s : State) (e : LinkEvent) : (s.record e).rbuf = s.rbuf := rfl
@[simp] theorem State.record_rlen (s : State) (e : LinkEvent) : (s.record e).rlen = s.rlen := rfl
@[simp] theorem State.record_r (s : State) (e : LinkEvent) : (s.record e).r = s.r := rfl
@[simp] theorem State.record_b0 (s : State) (e : LinkEvent) : (s.record e).b0 = s.b0 := rfl
@[simp] theorem State.record_b1 (s : State) (e : LinkEvent) : (s.record e).b1 = s.b1 := rfl
@[simp] theorem State.record_p (s : State) (e : LinkEvent) : (s.record e).p = s.p := rfl
@[simp] theorem State.record_sta (s : State) (e : LinkEvent) : (s.record e).sta = s.sta := rfl
@[simp] theorem State.record_trace (s : State) (e : LinkEvent) : (s.record e).trace = s.trace ++ [e] := rfl
@[simp] theorem State.record_epoch (s : State) (e : LinkEvent) : (s.record e).epoch = s.epoch := rfl
@[simp] theorem State.record_transport (s : State) (e : LinkEvent) : (s.record e).transport = s.transport := rfl
@[simp] theorem State.record_inputs (s : State) (e : LinkEvent) : (s.record e).inputs = s.inputs := rfl
@[simp] theorem State.record_cfg (s : State) (e : LinkEvent) : (s.record e).cfg = s.cfg := rfl

/-! ## `State.selectTarget` -/

@[simp] theorem State.selectTarget_op (s : State) : (s.selectTarget).op = s.op := rfl
@[simp] theorem State.selectTarget_a (s : State) : (s.selectTarget).a = s.a := rfl
@[simp] theorem State.selectTarget_c (s : State) : (s.selectTarget).c = s.c := rfl
@[simp] theorem State.selectTarget_n (s : State) : (s.selectTarget).n = s.n := rfl
@[simp] theorem State.selectTarget_i (s : State) : (s.selectTarget).i = s.i := rfl
@[simp] theorem State.selectTarget_dbuf (s : State) : (s.selectTarget).dbuf = s.dbuf := rfl
@[simp] theorem State.selectTarget_ch (s : State) : (s.selectTarget).ch = s.ch := rfl
@[simp] theorem State.selectTarget_id1 (s : State) : (s.selectTarget).id1 = s.id1 := rfl
@[simp] theorem State.selectTarget_id2 (s : State) : (s.selectTarget).id2 = s.id2 := rfl
@[simp] theorem State.selectTarget_len (s : State) : (s.selectTarget).len = s.len := rfl
@[simp] theorem State.selectTarget_rakl (s : State) : (s.selectTarget).rakl = s.rakl := rfl
@[simp] theorem State.selectTarget_ptr (s : State) : (s.selectTarget).ptr = s.ptr := rfl
@[simp] theorem State.selectTarget_bIdcmd (s : State) : (s.selectTarget).bIdcmd = s.bIdcmd := rfl
@[simp] theorem State.selectTarget_bMptr (s : State) : (s.selectTarget).bMptr = s.bMptr := rfl
@[simp] theorem State.selectTarget_bLsta (s : State) : (s.selectTarget).bLsta = s.bLsta := rfl
@[simp] theorem State.selectTarget_rx (s : State) : (s.selectTarget).rx = s.rx := rfl
@[simp] theorem State.selectTarget_mstep (s : State) : (s.selectTarget).mstep = s.mstep := rfl
@[simp] theorem State.selectTarget_ph (s : State) : (s.selectTarget).ph = s.ph := rfl
@[simp] theorem State.selectTarget_busy (s : State) : (s.selectTarget).busy = s.busy := rfl
@[simp] theorem State.selectTarget_cstat (s : State) : (s.selectTarget).cstat = s.cstat := rfl
@[simp] theorem State.selectTarget_errcnt (s : State) : (s.selectTarget).errcnt = s.errcnt := rfl
@[simp] theorem State.selectTarget_selline (s : State) : (s.selectTarget).selline = true := rfl
@[simp] theorem State.selectTarget_rbuf (s : State) : (s.selectTarget).rbuf = s.rbuf := rfl
@[simp] theorem State.selectTarget_rlen (s : State) : (s.selectTarget).rlen = s.rlen := rfl
@[simp] theorem State.selectTarget_r (s : State) : (s.selectTarget).r = s.r := rfl
@[simp] theorem State.selectTarget_b0 (s : State) : (s.selectTarget).b0 = s.b0 := rfl
@[simp] theorem State.selectTarget_b1 (s : State) : (s.selectTarget).b1 = s.b1 := rfl
@[simp] theorem State.selectTarget_p (s : State) : (s.selectTarget).p = s.p := rfl
@[simp] theorem State.selectTarget_sta (s : State) : (s.selectTarget).sta = s.sta := rfl
@[simp] theorem State.selectTarget_trace (s : State) : (s.selectTarget).trace = s.trace ++ [.sel] := rfl
@[simp] theorem State.selectTarget_epoch (s : State) : (s.selectTarget).epoch = s.epoch := rfl
@[simp] theorem State.selectTarget_transport (s : State) : (s.selectTarget).transport = s.transport := rfl
@[simp] theorem State.selectTarget_inputs (s : State) : (s.selectTarget).inputs = s.inputs := rfl
@[simp] theorem State.selectTarget_cfg (s : State) : (s.selectTarget).cfg = s.cfg := rfl

/-! ## `State.deselectTarget` -/

@[simp] theorem State.deselectTarget_op (s : State) : (s.deselectTarget).op = s.op := rfl
@[simp] theorem State.deselectTarget_a (s : State) : (s.deselectTarget).a = s.a := rfl
@[simp] theorem State.deselectTarget_c (s : State) : (s.deselectTarget).c = s.c := rfl
@[simp] theorem State.deselectTarget_n (s : State) : (s.deselectTarget).n = s.n := rfl
@[simp] theorem State.deselectTarget_i (s : State) : (s.deselectTarget).i = s.i := rfl
@[simp] theorem State.deselectTarget_dbuf (s : State) : (s.deselectTarget).dbuf = s.dbuf := rfl
@[simp] theorem State.deselectTarget_ch (s : State) : (s.deselectTarget).ch = s.ch := rfl
@[simp] theorem State.deselectTarget_id1 (s : State) : (s.deselectTarget).id1 = s.id1 := rfl
@[simp] theorem State.deselectTarget_id2 (s : State) : (s.deselectTarget).id2 = s.id2 := rfl
@[simp] theorem State.deselectTarget_len (s : State) : (s.deselectTarget).len = s.len := rfl
@[simp] theorem State.deselectTarget_rakl (s : State) : (s.deselectTarget).rakl = s.rakl := rfl
@[simp] theorem State.deselectTarget_ptr (s : State) : (s.deselectTarget).ptr = s.ptr := rfl
@[simp] theorem State.deselectTarget_bIdcmd (s : State) : (s.deselectTarget).bIdcmd = s.bIdcmd := rfl
@[simp] theorem State.deselectTarget_bMptr (s : State) : (s.deselectTarget).bMptr = s.bMptr := rfl
@[simp] theorem State.deselectTarget_bLsta (s : State) : (s.deselectTarget).bLsta = s.bLsta := rfl
@[simp] theorem State.deselectTarget_rx (s : State) : (s.deselectTarget).rx = s.rx := rfl
@[simp] theorem State.deselectTarget_mstep (s : State) : (s.deselectTarget).mstep = s.mstep := rfl
@[simp] theorem State.deselectTarget_ph (s : State) : (s.deselectTarget).ph = s.ph := rfl
@[simp] theorem State.deselectTarget_busy (s : State) : (s.deselectTarget).busy = s.busy := rfl
@[simp] theorem State.deselectTarget_cstat (s : State) : (s.deselectTarget).cstat = s.cstat := rfl
@[simp] theorem State.deselectTarget_errcnt (s : State) : (s.deselectTarget).errcnt = s.errcnt := rfl
@[simp] theorem State.deselectTarget_selline (s : State) : (s.deselectTarget).selline = false := rfl
@[simp] theorem State.deselectTarget_rbuf (s : State) : (s.deselectTarget).rbuf = s.rbuf := rfl
@[simp] theorem State.deselectTarget_rlen (s : State) : (s.deselectTarget).rlen = s.rlen := rfl
@[simp] theorem State.deselectTarget_r (s : State) : (s.deselectTarget).r = s.r := rfl
@[simp] theorem State.deselectTarget_b0 (s : State) : (s.deselectTarget).b0 = s.b0 := rfl
@[simp] theorem State.deselectTarget_b1 (s : State) : (s.deselectTarget).b1 = s.b1 := rfl
@[simp] theorem State.deselectTarget_p (s : State) : (s.deselectTarget).p = s.p := rfl
@[simp] theorem State.deselectTarget_sta (s : State) : (s.deselectTarget).sta = s.sta := rfl
@[simp] theorem State.deselectTarget_trace (s : State) : (s.deselectTarget).trace = s.trace ++ [.desel] := rfl
@[simp] theorem State.deselectTarget_epoch (s : State) : (s.deselectTarget).epoch = s.epoch := rfl
@[simp] theorem State.deselectTarget_transport (s : State) : (s.deselectTarget).transport = s.transport := rfl
@[simp] theorem State.deselectTarget_inputs (s : State) : (s.deselectTarget).inputs = s.inputs := rfl
@[simp] theorem State.deselectTarget_cfg (s : State) : (s.deselectTarget).cfg = s.cfg := rfl

/-! ## `State.xchg` -/

@[simp] theorem State.xchg_op (s : State) (t : Byte) : (s.xchg t).op = s.op := rfl
@[simp] theorem State.xchg_a (s : State) (t : Byte) : (s.xchg t).a = s.a := rfl
@[simp] theorem State.xchg_c (s : State) (t : Byte) : (s.xchg t).c = s.c := rfl
@[simp] theorem State.xchg_n (s : State) (t : Byte) : (s.xchg t).n = s.n := rfl
@[simp] theorem State.xchg_i (s : State) (t : Byte) : (s.xchg t).i = s.i := rfl
@[simp] theorem State.xchg_dbuf (s : State) (t : Byte) : (s.xchg t).dbuf = s.dbuf := rfl
@[simp] theorem State.xchg_ch (s : State) (t : Byte) : (s.xchg t).ch = s.ch := rfl
@[simp] theorem State.xchg_id1 (s : State) (t : Byte) : (s.xchg t).id1 = s.id1 := rfl
@[simp] theorem State.xchg_id2 (s : State) (t : Byte) : (s.xchg t).id2 = s.id2 := rfl
@[simp] theorem State.xchg_len (s : State) (t : Byte) : (s.xchg t).len = s.len := rfl
@[simp] theorem State.xchg_rakl (s : State) (t : Byte) : (s.xchg t).rakl = s.rakl := rfl
@[simp] theorem State.xchg_ptr (s : State) (t : Byte) : (s.xchg t).ptr = s.ptr := rfl
@[simp] theorem State.xchg_bIdcmd (s : State) (t : Byte) : (s.xchg t).bIdcmd = s.bIdcmd := rfl
@[simp] theorem State.xchg_bMptr (s : State) (t : Byte) : (s.xchg t).bMptr = s.bMptr := rfl
@[simp] theorem State.xchg_bLsta (s : State) (t : Byte) : (s.xchg t).bLsta = s.bLsta := rfl
@[simp] theorem State.xchg_rx (s : State) (t : Byte) : (s.xchg t).rx = s.transport.next := rfl
@[simp] theorem State.xchg_mstep (s : State) (t : Byte) : (s.xchg t).mstep = s.mstep := rfl
@[simp] theorem State.xchg_ph (s : State) (t : Byte) : (s.xchg t).ph = s.ph := rfl
@[simp] theorem State.xchg_busy (s : State) (t : Byte) : (s.xchg t).busy = s.busy := rfl
@[simp] theorem State.xchg_cstat (s : State) (t : Byte) : (s.xchg t).cstat = s.cstat := rfl
@[simp] theorem State.xchg_errcnt (s : State) (t : Byte) : (s.xchg t).errcnt = s.errcnt := rfl
@[simp] theorem State.xchg_selline (s : State) (t : Byte) : (s.xchg t).selline = s.selline := rfl
@[simp] theorem State.xchg_rbuf (s : State) (t : Byte) : (s.xchg t).rbuf = s.rbuf := rfl
@[simp] theorem State.xchg_rlen (s : State) (t : Byte) : (s.xchg t).rlen = s.rlen := rfl
@[simp] theorem State.xchg_r (s : State) (t : Byte) : (s.xchg t).r = s.r := rfl
@[simp] theorem State.xchg_b0 (s : State) (t : Byte) : (s.xchg t).b0 = s.b0 := rfl
@[simp] theorem State.xchg_b1 (s : State) (t : Byte) : (s.xchg t).b1 = s.b1 := rfl
@[simp] theorem State.xchg_p (s : State) (t : Byte) : (s.xchg t).p = s.p := rfl
@[simp] theorem State.xchg_sta (s : State) (t : Byte) : (s.xchg t).sta = s.sta := rfl
@[simp] theorem State.xchg_trace (s : State) (t : Byte) : (s.xchg t).trace = s.trace ++ [.x t s.transport.next] := rfl
@[simp] theorem State.xchg_epoch (s : State) (t : Byte) : (s.xchg t).epoch = s.epoch := rfl
@[simp] theorem State.xchg_transport (s : State) (t : Byte) : (s.xchg t).transport = s.transport.completeExchange := rfl
@[simp] theorem State.xchg_inputs (s : State) (t : Byte) : (s.xchg t).inputs = s.inputs := rfl
@[simp] theorem State.xchg_cfg (s : State) (t : Byte) : (s.xchg t).cfg = s.cfg := rfl

/-! ## `State.raiseHandshakeMismatch` -/

@[simp] theorem State.raiseHandshakeMismatch_op (s : State) (m : MismatchPhase) : (s.raiseHandshakeMismatch m).op = s.op := rfl
@[simp] theorem State.raiseHandshakeMismatch_a (s : State) (m : MismatchPhase) : (s.raiseHandshakeMismatch m).a = s.a := rfl
@[simp] theorem State.raiseHandshakeMismatch_c (s : State) (m : MismatchPhase) : (s.raiseHandshakeMismatch m).c = s.c := rfl
@[simp] theorem State.raiseHandshakeMismatch_n (s : State) (m : MismatchPhase) : (s.raiseHandshakeMismatch m).n = s.n := rfl
@[simp] theorem State.raiseHandshakeMismatch_i (s : State) (m : MismatchPhase) : (s.raiseHandshakeMismatch m).i = s.i := rfl
@[simp] theorem State.raiseHandshakeMismatch_dbuf (s : State) (m : MismatchPhase) : (s.raiseHandshakeMismatch m).dbuf = s.dbuf := rfl
@[simp] theorem State.raiseHandshakeMismatch_ch (s : State) (m : MismatchPhase) : (s.raiseHandshakeMismatch m).ch = s.ch := rfl
@[simp] theorem State.raiseHandshakeMismatch_id1 (s : State) (m : MismatchPhase) : (s.raiseHandshakeMismatch m).id1 = s.id1 := rfl
@[simp] theorem State.raiseHandshakeMismatch_id2 (s : State) (m : MismatchPhase) : (s.raiseHandshakeMismatch m).id2 = s.id2 := rfl
@[simp] theorem State.raiseHandshakeMismatch_len (s : State) (m : MismatchPhase) : (s.raiseHandshakeMismatch m).len = s.len := rfl
@[simp] theorem State.raiseHandshakeMismatch_rakl (s : State) (m : MismatchPhase) : (s.raiseHandshakeMismatch m).rakl = s.rakl := rfl
@[simp] theorem State.raiseHandshakeMismatch_ptr (s : State) (m : MismatchPhase) : (s.raiseHandshakeMismatch m).ptr = s.ptr := rfl
@[simp] theorem State.raiseHandshakeMismatch_bIdcmd (s : State) (m : MismatchPhase) : (s.raiseHandshakeMismatch m).bIdcmd = s.bIdcmd := rfl
@[simp] theorem State.raiseHandshakeMismatch_bMptr (s : State) (m : MismatchPhase) : (s.raiseHandshakeMismatch m).bMptr = s.bMptr := rfl
@[simp] theorem State.raiseHandshakeMismatch_bLsta (s : State) (m : MismatchPhase) : (s.raiseHandshakeMismatch m).bLsta = s.bLsta := rfl
@[simp] theorem State.raiseHandshakeMismatch_rx (s : State) (m : MismatchPhase) : (s.raiseHandshakeMismatch m).rx = s.rx := rfl
@[simp] theorem State.raiseHandshakeMismatch_mstep (s : State) (m : MismatchPhase) : (s.raiseHandshakeMismatch m).mstep = s.mstep := rfl
@[simp] theorem State.raiseHandshakeMismatch_ph (s : State) (m : MismatchPhase) : (s.raiseHandshakeMismatch m).ph = s.ph := rfl
@[simp] theorem State.raiseHandshakeMismatch_busy (s : State) (m : MismatchPhase) : (s.raiseHandshakeMismatch m).busy = s.busy := rfl
@[simp] theorem State.raiseHandshakeMismatch_cstat (s : State) (m : MismatchPhase) : (s.raiseHandshakeMismatch m).cstat = s.cstat := rfl
@[simp] theorem State.raiseHandshakeMismatch_errcnt (s : State) (m : MismatchPhase) : (s.raiseHandshakeMismatch m).errcnt = (s.errcnt + 1) % 2 ^ s.cfg.errcntW := rfl
@[simp] theorem State.raiseHandshakeMismatch_selline (s : State) (m : MismatchPhase) : (s.raiseHandshakeMismatch m).selline = s.selline := rfl
@[simp] theorem State.raiseHandshakeMismatch_rbuf (s : State) (m : MismatchPhase) : (s.raiseHandshakeMismatch m).rbuf = s.rbuf := rfl
@[simp] theorem State.raiseHandshakeMismatch_rlen (s : State) (m : MismatchPhase) : (s.raiseHandshakeMismatch m).rlen = s.rlen := rfl
@[simp] theorem State.raiseHandshakeMismatch_r (s : State) (m : MismatchPhase) : (s.raiseHandshakeMismatch m).r = s.r := rfl
@[simp] theorem State.raiseHandshakeMismatch_b0 (s : State) (m : MismatchPhase) : (s.raiseHandshakeMismatch m).b0 = s.b0 := rfl
@[simp] theorem State.raiseHandshakeMismatch_b1 (s : State) (m : MismatchPhase) : (s.raiseHandshakeMismatch m).b1 = s.b1 := rfl
@[simp] theorem State.raiseHandshakeMismatch_p (s : State) (m : MismatchPhase) : (s.raiseHandshakeMismatch m).p = s.p := rfl
@[simp] theorem State.raiseHandshakeMismatch_sta (s : State) (m : MismatchPhase) : (s.raiseHandshakeMismatch m).sta = s.sta := rfl
@[simp] theorem State.raiseHandshakeMismatch_trace (s : State) (m : MismatchPhase) : (s.raiseHandshakeMismatch m).trace = s.trace := rfl
@[simp] theorem State.raiseHandshakeMismatch_epoch (s : State) (m : MismatchPhase) : (s.raiseHandshakeMismatch m).epoch = s.epoch := rfl
@[simp] theorem State.raiseHandshakeMismatch_transport (s : State) (m : MismatchPhase) : (s.raiseHandshakeMismatch m).transport = s.transport := rfl
@[simp] theorem State.raiseHandshakeMismatch_inputs (s : State) (m : MismatchPhase) : (s.raiseHandshakeMismatch m).inputs = s.inputs := rfl
@[simp] theorem State.raiseHandshakeMismatch_cfg (s : State) (m : MismatchPhase) : (s.raiseHandshakeMismatch m).cfg = s.cfg := rfl

/-! ## `State.deliver` -/

@[simp] theorem State.deliver_op (s : State) (bs : List Byte) : (s.deliver bs).op = s.op := rfl
@[simp] theorem State.deliver_a (s : State) (bs : List Byte) : (s.deliver bs).a = s.a := rfl
@[simp] theorem State.deliver_c (s : State) (bs : List Byte) : (s.deliver bs).c = s.c := rfl
@[simp] theorem State.deliver_n (s : State) (bs : List Byte) : (s.deliver bs).n = s.n := rfl
@[simp] theorem State.deliver_i (s : State) (bs : List Byte) : (s.deliver bs).i = s.i := rfl
@[simp] theorem State.deliver_dbuf (s : State) (bs : List Byte) : (s.deliver bs).dbuf = s.dbuf := rfl
@[simp] theorem State.deliver_ch (s : State) (bs : List Byte) : (s.deliver bs).ch = s.ch := rfl
@[simp] theorem State.deliver_id1 (s : State) (bs : List Byte) : (s.deliver bs).id1 = s.id1 := rfl
@[simp] theorem State.deliver_id2 (s : State) (bs : List Byte) : (s.deliver bs).id2 = s.id2 := rfl
@[simp] theorem State.deliver_len (s : State) (bs : List Byte) : (s.deliver bs).len = s.len := rfl
@[simp] theorem State.deliver_rakl (s : State) (bs : List Byte) : (s.deliver bs).rakl = s.rakl := rfl
@[simp] theorem State.deliver_ptr (s : State) (bs : List Byte) : (s.deliver bs).ptr = s.ptr := rfl
@[simp] theorem State.deliver_bIdcmd (s : State) (bs : List Byte) : (s.deliver bs).bIdcmd = s.bIdcmd := rfl
@[simp] theorem State.deliver_bMptr (s : State) (bs : List Byte) : (s.deliver bs).bMptr = s.bMptr := rfl
@[simp] theorem State.deliver_bLsta (s : State) (bs : List Byte) : (s.deliver bs).bLsta = s.bLsta := rfl
@[simp] theorem State.deliver_rx (s : State) (bs : List Byte) : (s.deliver bs).rx = s.rx := rfl
@[simp] theorem State.deliver_mstep (s : State) (bs : List Byte) : (s.deliver bs).mstep = s.mstep := rfl
@[simp] theorem State.deliver_ph (s : State) (bs : List Byte) : (s.deliver bs).ph = s.ph := rfl
@[simp] theorem State.deliver_busy (s : State) (bs : List Byte) : (s.deliver bs).busy = s.busy := rfl
@[simp] theorem State.deliver_cstat (s : State) (bs : List Byte) : (s.deliver bs).cstat = s.cstat := rfl
@[simp] theorem State.deliver_errcnt (s : State) (bs : List Byte) : (s.deliver bs).errcnt = s.errcnt := rfl
@[simp] theorem State.deliver_selline (s : State) (bs : List Byte) : (s.deliver bs).selline = s.selline := rfl
@[simp] theorem State.deliver_rbuf (s : State) (bs : List Byte) : (s.deliver bs).rbuf = Memory.load [] bs := rfl
@[simp] theorem State.deliver_rlen (s : State) (bs : List Byte) : (s.deliver bs).rlen = BitVec.ofNat 8 bs.length := rfl
@[simp] theorem State.deliver_r (s : State) (bs : List Byte) : (s.deliver bs).r = s.r := rfl
@[simp] theorem State.deliver_b0 (s : State) (bs : List Byte) : (s.deliver bs).b0 = s.b0 := rfl
@[simp] theorem State.deliver_b1 (s : State) (bs : List Byte) : (s.deliver bs).b1 = s.b1 := rfl
@[simp] theorem State.deliver_p (s : State) (bs : List Byte) : (s.deliver bs).p = s.p := rfl
@[simp] theorem State.deliver_sta (s : State) (bs : List Byte) : (s.deliver bs).sta = s.sta := rfl
@[simp] theorem State.deliver_trace (s : State) (bs : List Byte) : (s.deliver bs).trace = s.trace := rfl
@[simp] theorem State.deliver_epoch (s : State) (bs : List Byte) : (s.deliver bs).epoch = s.epoch + 1 := rfl
@[simp] theorem State.deliver_transport (s : State) (bs : List Byte) : (s.deliver bs).transport = s.transport := rfl
@[simp] theorem State.deliver_inputs (s : State) (bs : List Byte) : (s.deliver bs).inputs = s.inputs := rfl
@[simp] theorem State.deliver_cfg (s : State) (bs : List Byte) : (s.deliver bs).cfg = s.cfg := rfl

/-! ## `State.accept` -/

@[simp] theorem State.accept_op (s : State) (o : Opcode) : (s.accept o).op = o.code := rfl
@[simp] theorem State.accept_a (s : State) (o : Opcode) : (s.accept o).a = s.a := rfl
@[simp] theorem State.accept_c (s : State) (o : Opcode) : (s.accept o).c = s.c := rfl
@[simp] theorem State.accept_n (s : State) (o : Opcode) : (s.accept o).n = s.n := rfl
@[simp] theorem State.accept_i (s : State) (o : Opcode) : (s.accept o).i = 0 := rfl
@[simp] theorem State.accept_dbuf (s : State) (o : Opcode) : (s.accept o).dbuf = s.dbuf := rfl
@[simp] theorem State.accept_ch (s : State) (o : Opcode) : (s.accept o).ch = s.ch := rfl
@[simp] theorem State.accept_id1 (s : State) (o : Opcode) : (s.accept o).id1 = s.id1 := rfl
@[simp] theorem State.accept_id2 (s : State) (o : Opcode) : (s.accept o).id2 = s.id2 := rfl
@[simp] theorem State.accept_len (s : State) (o : Opcode) : (s.accept o).len = s.len := rfl
@[simp] theorem State.accept_rakl (s : State) (o : Opcode) : (s.accept o).rakl = s.rakl := rfl
@[simp] theorem State.accept_ptr (s : State) (o : Opcode) : (s.accept o).ptr = s.ptr := rfl
@[simp] theorem State.accept_bIdcmd (s : State) (o : Opcode) : (s.accept o).bIdcmd = s.bIdcmd := rfl
@[simp] theorem State.accept_bMptr (s : State) (o : Opcode) : (s.accept o).bMptr = s.bMptr := rfl
@[simp] theorem State.accept_bLsta (s : State) (o : Opcode) : (s.accept o).bLsta = s.bLsta := rfl
@[simp] theorem State.accept_rx (s : State) (o : Opcode) : (s.accept o).rx = s.rx := rfl
@[simp] theorem State.accept_mstep (s : State) (o : Opcode) : (s.accept o).mstep = 0 := rfl
@[simp] theorem State.accept_ph (s : State) (o : Opcode) : (s.accept o).ph = .idle := rfl
@[simp] theorem State.accept_busy (s : State) (o : Opcode) : (s.accept o).busy = true := rfl
@[simp] theorem State.accept_cstat (s : State) (o : Opcode) : (s.accept o).cstat = .ok := rfl
@[simp] theorem State.accept_errcnt (s : State) (o : Opcode) : (s.accept o).errcnt = s.errcnt := rfl
@[simp] theorem State.accept_selline (s : State) (o : Opcode) : (s.accept o).selline = s.selline := rfl
@[simp] theorem State.accept_rbuf (s : State) (o : Opcode) : (s.accept o).rbuf = s.rbuf := rfl
@[simp] theorem State.accept_rlen (s : State) (o : Opcode) : (s.accept o).rlen = s.rlen := rfl
@[simp] theorem State.accept_r (s : State) (o : Opcode) : (s.accept o).r = s.r := rfl
@[simp] theorem State.accept_b0 (s : State) (o : Opcode) : (s.accept o).b0 = s.b0 := rfl
@[simp] theorem State.accept_b1 (s : State) (o : Opcode) : (s.accept o).b1 = s.b1 := rfl
@[simp] theorem State.accept_p (s : State) (o : Opcode) : (s.accept o).p = s.p := rfl
@[simp] theorem State.accept_sta (s : State) (o : Opcode) : (s.accept o).sta = s.sta := rfl
@[simp] theorem State.accept_trace (s : State) (o : Opcode) : (s.accept o).trace = s.trace := rfl
@[simp] theorem State.accept_epoch (s : State) (o : Opcode) : (s.accept o).epoch = s.epoch := rfl
@[simp] theorem State.accept_transport (s : State) (o : Opcode) : (s.accept o).transport = s.transport := rfl
@[simp] theorem State.accept_inputs (s : State) (o : Opcode) : (s.accept o).inputs = s.inputs := rfl
@[simp] theorem State.accept_cfg (s : State) (o : Opcode) : (s.accept o).cfg = s.cfg := rfl

/-! ## `State.reject` -/

@[simp] theorem State.reject_op (s : State) : (s.reject).op = s.op := rfl
@[simp] theorem State.reject_a (s : State) : (s.reject).a = s.a := rfl
@[simp] theorem State.reject_c (s : State) : (s.reject).c = s.c := rfl
@[simp] theorem State.reject_n (s : State) : (s.reject).n = s.n := rfl
@[simp] theorem State.reject_i (s : State) : (s.reject).i = s.i := rfl
@[simp] theorem State.reject_dbuf (s : State) : (s.reject).dbuf = s.dbuf := rfl
@[simp] theorem State.reject_ch (s : State) : (s.reject).ch = s.ch := rfl
@[simp] theorem State.reject_id1 (s : State) : (s.reject).id1 = s.id1 := rfl
@[simp] theorem State.reject_id2 (s : State) : (s.reject).id2 = s.id2 := rfl
@[simp] theorem State.reject_len (s : State) : (s.reject).len = s.len := rfl
@[simp] theorem State.reject_rakl (s : State) : (s.reject).rakl = s.rakl := rfl
@[simp] theorem State.reject_ptr (s : State) : (s.reject).ptr = s.ptr := rfl
@[simp] theorem State.reject_bIdcmd (s : State) : (s.reject).bIdcmd = s.bIdcmd := rfl
@[simp] theorem State.reject_bMptr (s : State) : (s.reject).bMptr = s.bMptr := rfl
@[simp] theorem State.reject_bLsta (s : State) : (s.reject).bLsta = s.bLsta := rfl
@[simp] theorem State.reject_rx (s : State) : (s.reject).rx = s.rx := rfl
@[simp] theorem State.reject_mstep (s : State) : (s.reject).mstep = s.mstep := rfl
@[simp] theorem State.reject_ph (s : State) : (s.reject).ph = s.ph := rfl
@[simp] theorem State.reject_busy (s : State) : (s.reject).busy = s.busy := rfl
@[simp] theorem State.reject_cstat (s : State) : (s.reject).cstat = .rejected := rfl
@[simp] theorem State.reject_errcnt (s : State) : (s.reject).errcnt = s.errcnt := rfl
@[simp] theorem State.reject_selline (s : State) : (s.reject).selline = s.selline := rfl
@[simp] theorem State.reject_rbuf (s : State) : (s.reject).rbuf = s.rbuf := rfl
@[simp] theorem State.reject_rlen (s : State) : (s.reject).rlen = s.rlen := rfl
@[simp] theorem State.reject_r (s : State) : (s.reject).r = s.r := rfl
@[simp] theorem State.reject_b0 (s : State) : (s.reject).b0 = s.b0 := rfl
@[simp] theorem State.reject_b1 (s : State) : (s.reject).b1 = s.b1 := rfl
@[simp] theorem State.reject_p (s : State) : (s.reject).p = s.p := rfl
@[simp] theorem State.reject_sta (s : State) : (s.reject).sta = s.sta := rfl
@[simp] theorem State.reject_trace (s : State) : (s.reject).trace = s.trace := rfl
@[simp] theorem State.reject_epoch (s : State) : (s.reject).epoch = s.epoch := rfl
@[simp] theorem State.reject_transport (s : State) : (s.reject).transport = s.transport := rfl
@[simp] theorem State.reject_inputs (s : State) : (s.reject).inputs = s.inputs := rfl
@[simp] theorem State.reject_cfg (s : State) : (s.reject).cfg = s.cfg := rfl

/-! ## `State.consumeInput` -/

@[simp] theorem State.consumeInput_op (s : State) : (s.consumeInput).op = s.op := rfl
@[simp] theorem State.consumeInput_a (s : State) : (s.consumeInput).a = s.a := rfl
@[simp] theorem State.consumeInput_c (s : State) : (s.consumeInput).c = s.c := rfl
@[simp] theorem State.consumeInput_n (s : State) : (s.consumeInput).n = s.n := rfl
@[simp] theorem State.consumeInput_i (s : State) : (s.consumeInput).i = s.i := rfl
@[simp] theorem State.consumeInput_dbuf (s : State) : (s.consumeInput).dbuf = s.dbuf := rfl
@[simp] theorem State.consumeInput_ch (s : State) : (s.consumeInput).ch = s.ch := rfl
@[simp] theorem State.consumeInput_id1 (s : State) : (s.consumeInput).id1 = s.id1 := rfl
@[simp] theorem State.consumeInput_id2 (s : State) : (s.consumeInput).id2 = s.id2 := rfl
@[simp] theorem State.consumeInput_len (s : State) : (s.consumeInput).len = s.len := rfl
@[simp] theorem State.consumeInput_rakl (s : State) : (s.consumeInput).rakl = s.rakl := rfl
@[simp] theorem State.consumeInput_ptr (s : State) : (s.consumeInput).ptr = s.ptr := rfl
@[simp] theorem State.consumeInput_bIdcmd (s : State) : (s.consumeInput).bIdcmd = s.bIdcmd := rfl
@[simp] theorem State.consumeInput_bMptr (s : State) : (s.consumeInput).bMptr = s.bMptr := rfl
@[simp] theorem State.consumeInput_bLsta (s : State) : (s.consumeInput).bLsta = s.bLsta := rfl
@[simp] theorem State.consumeInput_rx (s : State) : (s.consumeInput).rx = s.rx := rfl
@[simp] theorem State.consumeInput_mstep (s : State) : (s.consumeInput).mstep = s.mstep := rfl
@[simp] theorem State.consumeInput_ph (s : State) : (s.consumeInput).ph = s.ph := rfl
@[simp] theorem State.consumeInput_busy (s : State) : (s.consumeInput).busy = s.busy := rfl
@[simp] theorem State.consumeInput_cstat (s : State) : (s.consumeInput).cstat = s.cstat := rfl
@[simp] theorem State.consumeInput_errcnt (s : State) : (s.consumeInput).errcnt = s.errcnt := rfl
@[simp] theorem State.consumeInput_selline (s : State) : (s.consumeInput).selline = s.selline := rfl
@[simp] theorem State.consumeInput_rbuf (s : State) : (s.consumeInput).rbuf = s.rbuf := rfl
@[simp] theorem State.consumeInput_rlen (s : State) : (s.consumeInput).rlen = s.rlen := rfl
@[simp] theorem State.consumeInput_r (s : State) : (s.consumeInput).r = s.r := rfl
@[simp] theorem State.consumeInput_b0 (s : State) : (s.consumeInput).b0 = s.b0 := rfl
@[simp] theorem State.consumeInput_b1 (s : State) : (s.consumeInput).b1 = s.b1 := rfl
@[simp] theorem State.consumeInput_p (s : State) : (s.consumeInput).p = s.p := rfl
@[simp] theorem State.consumeInput_sta (s : State) : (s.consumeInput).sta = s.sta := rfl
@[simp] theorem State.consumeInput_trace (s : State) : (s.consumeInput).trace = s.trace := rfl
@[simp] theorem State.consumeInput_epoch (s : State) : (s.consumeInput).epoch = s.epoch := rfl
@[simp] theorem State.consumeInput_transport (s : State) : (s.consumeInput).transport = s.transport := rfl
@[simp] theorem State.consumeInput_inputs (s : State) : (s.consumeInput).inputs = s.inputs.tail := rfl
@[simp] theorem State.consumeInput_cfg (s : State) : (s.consumeInput).cfg = s.cfg := rfl

/-! ## `State.delay` -/

@[simp] theorem State.delay_op (s : State) (n : Nat) : (s.delay n).op = s.op := by
  unfold State.delay
  split <;> rfl
@[simp] theorem State.delay_a (s : State) (n : Nat) : (s.delay n).a = s.a := by
  unfold State.delay
  split <;> rfl
@[simp] theorem State.delay_c (s : State) (n : Nat) : (s.delay n).c = s.c := by
  unfold State.delay
  split <;> rfl
@[simp] theorem State.delay_n (s : State) (n : Nat) : (s.delay n).n = s.n := by
  unfold State.delay
  split <;> rfl
@[simp] theorem State.delay_i (s : State) (n : Nat) : (s.delay n).i = s.i := by
  unfold State.delay
  split <;> rfl
@[simp] theorem State.delay_dbuf (s : State) (n : Nat) : (s.delay n).dbuf = s.dbuf := by
  unfold State.delay
  split <;> rfl
@[simp] theorem State.delay_ch (s : State) (n : Nat) : (s.delay n).ch = s.ch := by
  unfold State.delay
  split <;> rfl
@[simp] theorem State.delay_id1 (s : State) (n : Nat) : (s.delay n).id1 = s.id1 := by
  unfold State.delay
  split <;> rfl
@[simp] theorem State.delay_id2 (s : State) (n : Nat) : (s.delay n).id2 = s.id2 := by
  unfold State.delay
  split <;> rfl
@[simp] theorem State.delay_len (s : State) (n : Nat) : (s.delay n).len = s.len := by
  unfold State.delay
  split <;> rfl
@[simp] theorem State.delay_rakl (s : State) (n : Nat) : (s.delay n).rakl = s.rakl := by
  unfold State.delay
  split <;> rfl
@[simp] theorem State.delay_ptr (s : State) (n : Nat) : (s.delay n).ptr = s.ptr := by
  unfold State.delay
  split <;> rfl
@[simp] theorem State.delay_bIdcmd (s : State) (n : Nat) : (s.delay n).bIdcmd = s.bIdcmd := by
  unfold State.delay
  split <;> rfl
@[simp] theorem State.delay_bMptr (s : State) (n : Nat) : (s.delay n).bMptr = s.bMptr := by
  unfold State.delay
  split <;> rfl
@[simp] theorem State.delay_bLsta (s : State) (n : Nat) : (s.delay n).bLsta = s.bLsta := by
  unfold State.delay
  split <;> rfl
@[simp] theorem State.delay_rx (s : State) (n : Nat) : (s.delay n).rx = s.rx := by
  unfold State.delay
  split <;> rfl
@[simp] theorem State.delay_mstep (s : State) (n : Nat) : (s.delay n).mstep = s.mstep := by
  unfold State.delay
  split <;> rfl
@[simp] theorem State.delay_ph (s : State) (n : Nat) : (s.delay n).ph = s.ph := by
  unfold State.delay
  split <;> rfl
@[simp] theorem State.delay_busy (s : State) (n : Nat) : (s.delay n).busy = s.busy := by
  unfold State.delay
  split <;> rfl
@[simp] theorem State.delay_cstat (s : State) (n : Nat) : (s.delay n).cstat = s.cstat := by
  unfold State.delay
  split <;> rfl
@[simp] theorem State.delay_errcnt (s : State) (n : Nat) : (s.delay n).errcnt = s.errcnt := by
  unfold State.delay
  split <;> rfl
@[simp] theorem State.delay_selline (s : State) (n : Nat) : (s.delay n).selline = s.selline := by
  unfold State.delay
  split <;> rfl
@[simp] theorem State.delay_rbuf (s : State) (n : Nat) : (s.delay n).rbuf = s.rbuf := by
  unfold State.delay
  split <;> rfl
@[simp] theorem State.delay_rlen (s : State) (n : Nat) : (s.delay n).rlen = s.rlen := by
  unfold State.delay
  split <;> rfl
@[simp] theorem State.delay_r (s : State) (n : Nat) : (s.delay n).r = s.r := by
  unfold State.delay
  split <;> rfl
@[simp] theorem State.delay_b0 (s : State) (n : Nat) : (s.delay n).b0 = s.b0 := by
  unfold State.delay
  split <;> rfl
@[simp] theorem State.delay_b1 (s : State) (n : Nat) : (s.delay n).b1 = s.b1 := by
  unfold State.delay
  split <;> rfl
@[simp] theorem State.delay_p (s : State) (n : Nat) : (s.delay n).p = s.p := by
  unfold State.delay
  split <;> rfl
@[simp] theorem State.delay_sta (s : State) (n : Nat) : (s.delay n).sta = s.sta := by
  unfold State.delay
  split <;> rfl
@[simp] theorem State.delay_trace (s : State) (n : Nat) : (s.delay n).trace = s.trace ++ slot n := by
  unfold State.delay slot
  split <;> simp
@[simp] theorem State.delay_epoch (s : State) (n : Nat) : (s.delay n).epoch = s.epoch := by
  unfold State.delay
  split <;> rfl
@[simp] theorem State.delay_transport (s : State) (n : Nat) :
    (s.delay n).transport = if n = 0 then s.transport else s.transport.complete := by
  unfold State.delay
  split <;> rfl
@[simp] theorem State.delay_inputs (s : State) (n : Nat) : (s.delay n).inputs = s.inputs := by
  unfold State.delay
  split <;> rfl
@[simp] theorem State.delay_cfg (s : State) (n : Nat) : (s.delay n).cfg = s.cfg := by
  unfold State.delay
  split <;> rfl

/-! ## `State.checkAck` -/

@[simp] theorem State.checkAck_op (s : State) (k : Byte) (m : MismatchPhase) : (s.checkAck k m).op = s.op := by
  unfold State.checkAck
  split <;> rfl
@[simp] theorem State.checkAck_a (s : State) (k : Byte) (m : MismatchPhase) : (s.checkAck k m).a = s.a := by
  unfold State.checkAck
  split <;> rfl
@[simp] theorem State.checkAck_c (s : State) (k : Byte) (m : MismatchPhase) : (s.checkAck k m).c = s.c := by
  unfold State.checkAck
  split <;> rfl
@[simp] theorem State.checkAck_n (s : State) (k : Byte) (m : MismatchPhase) : (s.checkAck k m).n = s.n := by
  unfold State.checkAck
  split <;> rfl
@[simp] theorem State.checkAck_i (s : State) (k : Byte) (m : MismatchPhase) : (s.checkAck k m).i = s.i := by
  unfold State.checkAck
  split <;> rfl
@[simp] theorem State.checkAck_dbuf (s : State) (k : Byte) (m : MismatchPhase) : (s.checkAck k m).dbuf = s.dbuf := by
  unfold State.checkAck
  split <;> rfl
@[simp] theorem State.checkAck_ch (s : State) (k : Byte) (m : MismatchPhase) : (s.checkAck k m).ch = s.ch := by
  unfold State.checkAck
  split <;> rfl
@[simp] theorem State.checkAck_id1 (s : State) (k : Byte) (m : MismatchPhase) : (s.checkAck k m).id1 = s.id1 := by
  unfold State.checkAck
  split <;> rfl
@[simp] theorem State.checkAck_id2 (s : State) (k : Byte) (m : MismatchPhase) : (s.checkAck k m).id2 = s.id2 := by
  unfold State.checkAck
  split <;> rfl
@[simp] theorem State.checkAck_len (s : State) (k : Byte) (m : MismatchPhase) : (s.checkAck k m).len = s.len := by
  unfold State.checkAck
  split <;> rfl
@[simp] theorem State.checkAck_rakl (s : State) (k : Byte) (m : MismatchPhase) : (s.checkAck k m).rakl = s.rakl := by
  unfold State.checkAck
  split <;> rfl
@[simp] theorem State.checkAck_ptr (s : State) (k : Byte) (m : MismatchPhase) : (s.checkAck k m).ptr = s.ptr := by
  unfold State.checkAck
  split <;> rfl
@[simp] theorem State.checkAck_bIdcmd (s : State) (k : Byte) (m : MismatchPhase) : (s.checkAck k m).bIdcmd = s.bIdcmd := by
  unfold State.checkAck
  split <;> rfl
@[simp] theorem State.checkAck_bMptr (s : State) (k : Byte) (m : MismatchPhase) : (s.checkAck k m).bMptr = s.bMptr := by
  unfold State.checkAck
  split <;> rfl
@[simp] theorem State.checkAck_bLsta (s : State) (k : Byte) (m : MismatchPhase) : (s.checkAck k m).bLsta = s.bLsta := by
  unfold State.checkAck
  split <;> rfl
@[simp] theorem State.checkAck_rx (s : State) (k : Byte) (m : MismatchPhase) : (s.checkAck k m).rx = s.rx := by
  unfold State.checkAck
  split <;> rfl
@[simp] theorem State.checkAck_mstep (s : State) (k : Byte) (m : MismatchPhase) : (s.checkAck k m).mstep = s.mstep := by
  unfold State.checkAck
  split <;> rfl
@[simp] theorem State.checkAck_ph (s : State) (k : Byte) (m : MismatchPhase) : (s.checkAck k m).ph = s.ph := by
  unfold State.checkAck
  split <;> rfl
@[simp] theorem State.checkAck_busy (s : State) (k : Byte) (m : MismatchPhase) : (s.checkAck k m).busy = s.busy := by
  unfold State.checkAck
  split <;> rfl
@[simp] theorem State.checkAck_cstat (s : State) (k : Byte) (m : MismatchPhase) : (s.checkAck k m).cstat = s.cstat := by
  unfold State.checkAck
  split <;> rfl
@[simp] theorem State.checkAck_errcnt (s : State) (k : Byte) (m : MismatchPhase) :
    (s.checkAck k m).errcnt = if s.rx = k then s.errcnt else (s.errcnt + 1) % 2 ^ s.cfg.errcntW := by
  unfold State.checkAck
  split <;> rfl
@[simp] theorem State.checkAck_selline (s : State) (k : Byte) (m : MismatchPhase) : (s.checkAck k m).selline = s.selline := by
  unfold State.checkAck
  split <;> rfl
@[simp] theorem State.checkAck_rbuf (s : State) (k : Byte) (m : MismatchPhase) : (s.checkAck k m).rbuf = s.rbuf := by
  unfold State.checkAck
  split <;> rfl
@[simp] theorem State.checkAck_rlen (s : State) (k : Byte) (m : MismatchPhase) : (s.checkAck k m).rlen = s.rlen := by
  unfold State.checkAck
  split <;> rfl
@[simp] theorem State.checkAck_r (s : State) (k : Byte) (m : MismatchPhase) : (s.checkAck k m).r = s.r := by
  unfold State.checkAck
  split <;> rfl
@[simp] theorem State.checkAck_b0 (s : State) (k : Byte) (m : MismatchPhase) : (s.checkAck k m).b0 = s.b0 := by
  unfold State.checkAck
  split <;> rfl
@[simp] theorem State.checkAck_b1 (s : State) (k : Byte) (m : MismatchPhase) : (s.checkAck k m).b1 = s.b1 := by
  unfold State.checkAck
  split <;> rfl
@[simp] theorem State.checkAck_p (s : State) (k : Byte) (m : MismatchPhase) : (s.checkAck k m).p = s.p := by
  unfold State.checkAck
  split <;> rfl
@[simp] theorem State.checkAck_sta (s : State) (k : Byte) (m : MismatchPhase) : (s.checkAck k m).sta = s.sta := by
  unfold State.checkAck
  split <;> rfl
@[simp] theorem State.checkAck_trace (s : State) (k : Byte) (m : MismatchPhase) : (s.checkAck k m).trace = s.trace := by
  unfold State.checkAck
  split <;> rfl
@[simp] theorem State.checkAck_epoch (s : State) (k : Byte) (m : MismatchPhase) : (s.checkAck k m).epoch = s.epoch := by
  unfold State.checkAck
  split <;> rfl
@[simp] theorem State.checkAck_transport (s : State) (k : Byte) (m : MismatchPhase) : (s.checkAck k m).transport = s.transport := by
  unfold State.checkAck
  split <;> rfl
@[simp] theorem State.checkAck_inputs (s : State) (k : Byte) (m : MismatchPhase) : (s.checkAck k m).inputs = s.inputs := by
  unfold State.checkAck
  split <;> rfl
@[simp] theorem State.checkAck_cfg (s : State) (k : Byte) (m : MismatchPhase) : (s.checkAck k m).cfg = s.cfg := by
  unfold State.checkAck
  split <;> rfl

/-! ## `State.payloadOrEnd` -/

@[simp] theorem State.payloadOrEnd_op (s : State) : s.payloadOrEnd.op = s.op := rfl
@[simp] theorem State.payloadOrEnd_a (s : State) : s.payloadOrEnd.a = s.a := rfl
@[simp] theorem State.payloadOrEnd_c (s : State) : s.payloadOrEnd.c = s.c := rfl
@[simp] theorem State.payloadOrEnd_n (s : State) : s.payloadOrEnd.n = s.n := rfl
@[simp] theorem State.payloadOrEnd_i (s : State) : s.payloadOrEnd.i = s.i := rfl
@[simp] theorem State.payloadOrEnd_dbuf (s : State) : s.payloadOrEnd.dbuf = s.dbuf := rfl
@[simp] theorem State.payloadOrEnd_ch (s : State) : s.payloadOrEnd.ch = s.ch := rfl
@[simp] theorem State.payloadOrEnd_id1 (s : State) : s.payloadOrEnd.id1 = s.id1 := rfl
@[simp] theorem State.payloadOrEnd_id2 (s : State) : s.payloadOrEnd.id2 = s.id2 := rfl
@[simp] theorem State.payloadOrEnd_len (s : State) : s.payloadOrEnd.len = s.len := rfl
@[simp] theorem State.payloadOrEnd_rakl (s : State) : s.payloadOrEnd.rakl = s.rakl := rfl
@[simp] theorem State.payloadOrEnd_ptr (s : State) : s.payloadOrEnd.ptr = s.ptr := rfl
@[simp] theorem State.payloadOrEnd_bIdcmd (s : State) : s.payloadOrEnd.bIdcmd = s.bIdcmd := rfl
@[simp] theorem State.payloadOrEnd_bMptr (s : State) : s.payloadOrEnd.bMptr = s.bMptr := rfl
@[simp] theorem State.payloadOrEnd_bLsta (s : State) : s.payloadOrEnd.bLsta = s.bLsta := rfl
@[simp] theorem State.payloadOrEnd_rx (s : State) : s.payloadOrEnd.rx = s.rx := rfl
@[simp] theorem State.payloadOrEnd_mstep (s : State) : s.payloadOrEnd.mstep = s.mstep := rfl
@[simp] theorem State.payloadOrEnd_ph (s : State) : s.payloadOrEnd.ph = if s.i < s.n then .data else .deselect := rfl
@[simp] theorem State.payloadOrEnd_busy (s : State) : s.payloadOrEnd.busy = s.busy := rfl
@[simp] theorem State.payloadOrEnd_cstat (s : State) : s.payloadOrEnd.cstat = s.cstat := rfl
@[simp] theorem State.payloadOrEnd_errcnt (s : State) : s.payloadOrEnd.errcnt = s.errcnt := rfl
@[simp] theorem State.payloadOrEnd_selline (s : State) : s.payloadOrEnd.selline = s.selline := rfl
@[simp] theorem State.payloadOrEnd_rbuf (s : State) : s.payloadOrEnd.rbuf = s.rbuf := rfl
@[simp] theorem State.payloadOrEnd_rlen (s : State) : s.payloadOrEnd.rlen = s.rlen := rfl
@[simp] theorem State.payloadOrEnd_r (s : State) : s.payloadOrEnd.r = s.r := rfl
@[simp] theorem State.payloadOrEnd_b0 (s : State) : s.payloadOrEnd.b0 = s.b0 := rfl
@[simp] theorem State.payloadOrEnd_b1 (s : State) : s.payloadOrEnd.b1 = s.b1 := rfl
@[simp] theorem State.payloadOrEnd_p (s : State) : s.payloadOrEnd.p = s.p := rfl
@[simp] theorem State.payloadOrEnd_sta (s : State) : s.payloadOrEnd.sta = s.sta := rfl
@[simp] theorem State.payloadOrEnd_trace (s : State) : s.payloadOrEnd.trace = s.trace := rfl
@[simp] theorem State.payloadOrEnd_epoch (s : State) : s.payloadOrEnd.epoch = s.epoch := rfl
@[simp] theorem State.payloadOrEnd_transport (s : State) : s.payloadOrEnd.transport = s.transport := rfl
@[simp] theorem State.payloadOrEnd_inputs (s : State) : s.payloadOrEnd.inputs = s.inputs := rfl
@[simp] theorem State.payloadOrEnd_cfg (s : State) : s.payloadOrEnd.cfg = s.cfg := rfl

/-! ## `State.exchangePayload` -/

@[simp] theorem State.exchangePayload_op (s : State) : s.exchangePayload.op = s.op := by
  unfold State.exchangePayload
  split <;> simp [*]
@[simp] theorem State.exchangePayload_a (s : State) : s.exchangePayload.a = s.a := by
  unfold State.exchangePayload
  split <;> simp [*]
@[simp] theorem State.exchangePayload_c (s : State) : s.exchangePayload.c = s.c := by
  unfold State.exchangePayload
  split <;> simp [*]
@[simp] theorem State.exchangePayload_n (s : State) : s.exchangePayload.n = s.n := by
  unfold State.exchangePayload
  split <;> simp [*]
@[simp] theorem State.exchangePayload_i (s : State) : s.exchangePayload.i = s.i := by
  unfold State.exchangePayload
  split <;> simp [*]
@[simp] theorem State.exchangePayload_dbuf (s : State) : s.exchangePayload.dbuf = s.dbuf := by
  unfold State.exchangePayload
  split <;> simp [*]
@[simp] theorem State.exchangePayload_ch (s : State) : s.exchangePayload.ch = s.ch := by
  unfold State.exchangePayload
  split <;> simp [*]
@[simp] theorem State.exchangePayload_id1 (s : State) : s.exchangePayload.id1 = s.id1 := by
  unfold State.exchangePayload
  split <;> simp [*]
@[simp] theorem State.exchangePayload_id2 (s : State) : s.exchangePayload.id2 = s.id2 := by
  unfold State.exchangePayload
  split <;> simp [*]
@[simp] theorem State.exchangePayload_len (s : State) : s.exchangePayload.len = s.len := by
  unfold State.exchangePayload
  split <;> simp [*]
@[simp] theorem State.exchangePayload_rakl (s : State) : s.exchangePayload.rakl = s.rakl := by
  unfold State.exchangePayload
  split <;> simp [*]
@[simp] theorem State.exchangePayload_ptr (s : State) : s.exchangePayload.ptr = s.ptr := by
  unfold State.exchangePayload
  split <;> simp [*]
@[simp] theorem State.exchangePayload_bIdcmd (s : State) : s.exchangePayload.bIdcmd = s.bIdcmd := by
  unfold State.exchangePayload
  split <;> simp [*]
@[simp] theorem State.exchangePayload_bMptr (s : State) : s.exchangePayload.bMptr = s.bMptr := by
  unfold State.exchangePayload
  split <;> simp [*]
@[simp] theorem State.exchangePayload_bLsta (s : State) : s.exchangePayload.bLsta = s.bLsta := by
  unfold State.exchangePayload
  split <;> simp [*]
@[simp] theorem State.exchangePayload_rx (s : State) : s.exchangePayload.rx = s.transport.next := by
  unfold State.exchangePayload
  split <;> simp [*]
@[simp] theorem State.exchangePayload_mstep (s : State) : s.exchangePayload.mstep = s.mstep := by
  unfold State.exchangePayload
  split <;> simp [*]
@[simp] theorem State.exchangePayload_ph (s : State) : s.exchangePayload.ph = s.ph := by
  unfold State.exchangePayload
  split <;> simp [*]
@[simp] theorem State.exchangePayload_busy (s : State) : s.exchangePayload.busy = s.busy := by
  unfold State.exchangePayload
  split <;> simp [*]
@[simp] theorem State.exchangePayload_cstat (s : State) : s.exchangePayload.cstat = s.cstat := by
  unfold State.exchangePayload
  split <;> simp [*]
@[simp] theorem State.exchangePayload_errcnt (s : State) : s.exchangePayload.errcnt = s.errcnt := by
  unfold State.exchangePayload
  split <;> simp [*]
@[simp] theorem State.exchangePayload_selline (s : State) : s.exchangePayload.selline = s.selline := by
  unfold State.exchangePayload
  split <;> simp [*]
@[simp] theorem State.exchangePayload_rbuf (s : State) : s.exchangePayload.rbuf = s.rbuf := by
  unfold State.exchangePayload
  split <;> simp [*]
@[simp] theorem State.exchangePayload_rlen (s : State) : s.exchangePayload.rlen = s.rlen := by
  unfold State.exchangePayload
  split <;> simp [*]
@[simp] theorem State.exchangePayload_r (s : State) : s.exchangePayload.r = if s.reads then s.r ++ [s.transport.next] else s.r := by
  unfold State.exchangePayload
  split <;> simp [*]
@[simp] theorem State.exchangePayload_b0 (s : State) : s.exchangePayload.b0 = s.b0 := by
  unfold State.exchangePayload
  split <;> simp [*]
@[simp] theorem State.exchangePayload_b1 (s : State) : s.exchangePayload.b1 = s.b1 := by
  unfold State.exchangePayload
  split <;> simp [*]
@[simp] theorem State.exchangePayload_p (s : State) : s.exchangePayload.p = s.p := by
  unfold State.exchangePayload
  split <;> simp [*]
@[simp] theorem State.exchangePayload_sta (s : State) : s.exchangePayload.sta = s.sta := by
  unfold State.exchangePayload
  split <;> simp [*]
@[simp] theorem State.exchangePayload_trace (s : State) : s.exchangePayload.trace = s.trace ++ [.x (if s.reads then filler else s.dbuf.read s.i.toNat) s.transport.next] := by
  unfold State.exchangePayload
  split <;> simp [*]
@[simp] theorem State.exchangePayload_epoch (s : State) : s.exchangePayload.epoch = s.epoch := by
  unfold State.exchangePayload
  split <;> simp [*]
@[simp] theorem State.exchangePayload_transport (s : State) : s.exchangePayload.transport = s.transport.completeExchange := by
  unfold State.exchangePayload
  split <;> simp [*]
@[simp] theorem State.exchangePayload_inputs (s : State) : s.exchangePayload.inputs = s.inputs := by
  unfold State.exchangePayload
  split <;> simp [*]
@[simp] theorem State.exchangePayload_cfg (s : State) : s.exchangePayload.cfg = s.cfg := by
  unfold State.exchangePayload
  split <;> simp [*]

end Sys2Proof.Machine
end

