-- ==== Sys2Proof/Laws/Run.lean ====
section
/-! SUPPORT. Running the sequencer: when it moves, how runs compose, what one move never touches, and the Transport's
answers along a run. -/

namespace Sys2Proof.Machine

/-! ## The Transport's answers -/

@[simp] theorem Transport.skip_zero (x : Transport) : x.skip 0 = x := by simp [Transport.skip]

@[simp] theorem Transport.skip_skip (x : Transport) (j k : Nat) : (x.skip j).skip k = x.skip (j + k) := by
  simp [Transport.skip, Nat.add_assoc]

@[simp] theorem Transport.skip_credit (x : Transport) (k : Nat) : (x.skip k).credit = x.credit := rfl

@[simp] theorem Transport.skip_answer (x : Transport) (j k : Nat) : (x.skip j).answer k = x.answer (j + k) := by
  simp [Transport.skip, Transport.answer, Nat.add_assoc]

/-- The byte the next exchange returns is answer 0. -/
theorem Transport.next_eq_answer (x : Transport) : x.next = x.answer 0 := by
  obtain ⟨as, e, c⟩ := x
  cases as <;> rfl

theorem Transport.complete_of_none {x : Transport} (h : x.credit = none) : x.complete = x := by
  obtain ⟨as, e, c⟩ := x
  simp_all [Transport.complete]

/-- Where no hold threatens, an exchange uses up one answer and nothing else. -/
theorem Transport.completeExchange_of_none {x : Transport} (h : x.credit = none) : x.completeExchange = x.skip 1 := by
  simp [Transport.completeExchange, Transport.complete_of_none h, Transport.skip]

/-! ## Runs -/

theorem State.run_of_not_running {s : State} (h : s.running = false) (k : Nat) : State.run k s = s := by
  cases k <;> simp [State.run, h]

theorem State.run_succ {s : State} (h : s.running = true) (k : Nat) : State.run (k + 1) s = State.run k s.tick := by
  simp [State.run, h]

/-- A run of `j + k` moves is a run of `j` and then one of `k`. -/
theorem State.run_add (j k : Nat) (s : State) : State.run (j + k) s = State.run k (State.run j s) := by
  induction j generalizing s with
  | zero => simp [State.run]
  | succ j ih =>
    by_cases h : s.running = true
    · rw [Nat.succ_add, State.run_succ h, State.run_succ h, ih]
    · have h' : s.running = false := by simpa using h
      rw [State.run_of_not_running h', State.run_of_not_running h', State.run_of_not_running h']

/-- Where the Transport completes everything, an operation in progress is never held. -/
theorem State.running_of_completes {s : State} (h : s.Completes) : s.running = s.busy := by
  simp [State.running, show s.transport.credit = none from h]

/-- One move of an operation in progress, where the Transport completes everything. -/
theorem State.run_move {s : State} (hb : s.busy = true) (hc : s.Completes) (k : Nat) :
    State.run (k + 1) s = State.run k s.tick :=
  State.run_succ (by rw [State.running_of_completes hc]; exact hb) k

theorem State.not_running_of_idle {s : State} (h : s.busy = false) : s.running = false := by
  simp [State.running, h]

/-- What is kept by every move is kept by a run. -/
theorem State.run_keeps {P : State → Prop} (h : ∀ s, s.running = true → P s → P s.tick) {s : State} (hs : P s)
    (k : Nat) : P (State.run k s) := by
  induction k generalizing s with
  | zero => exact hs
  | succ k ih =>
    by_cases hr : s.running = true
    · rw [State.run_succ hr]; exact ih (h s hr hs)
    · rw [State.run_of_not_running (by simpa using hr)]; exact hs

/-! ## What one move never touches -/

@[simp] theorem State.deliverResult_cfg (s : State) : s.deliverResult.cfg = s.cfg := by
  unfold State.deliverResult; split <;> rfl

/-- The fields only the acceptance of a descriptor loads, and those no move of the sequencer writes at all: the operand
latches OP, CH, ID1, ID2, LEN, RAKL, the packed bytes, CSTAT, the moves to come and the parameters (R11, R13). -/
structure SameOperands (s t : State) : Prop where
  op : t.op = s.op
  ch : t.ch = s.ch
  id1 : t.id1 = s.id1
  id2 : t.id2 = s.id2
  len : t.len = s.len
  rakl : t.rakl = s.rakl
  bIdcmd : t.bIdcmd = s.bIdcmd
  bMptr : t.bMptr = s.bMptr
  bLsta : t.bLsta = s.bLsta
  cstat : t.cstat = s.cstat
  inputs : t.inputs = s.inputs
  cfg : t.cfg = s.cfg

theorem SameOperands.rfl {s : State} : SameOperands s s := by constructor <;> exact Eq.refl _

theorem SameOperands.trans {s t u : State} (h : SameOperands s t) (h' : SameOperands t u) : SameOperands s u where
  op := h'.op.trans h.op
  ch := h'.ch.trans h.ch
  id1 := h'.id1.trans h.id1
  id2 := h'.id2.trans h.id2
  len := h'.len.trans h.len
  rakl := h'.rakl.trans h.rakl
  bIdcmd := h'.bIdcmd.trans h.bIdcmd
  bMptr := h'.bMptr.trans h.bMptr
  bLsta := h'.bLsta.trans h.bLsta
  cstat := h'.cstat.trans h.cstat
  inputs := h'.inputs.trans h.inputs
  cfg := h'.cfg.trans h.cfg

theorem State.deliverResult_sameOperands (s : State) : SameOperands s s.deliverResult := by
  unfold State.deliverResult
  split <;> constructor <;> rfl

theorem State.finish_sameOperands (s : State) : SameOperands s s.finish :=
  let h := s.deliverResult_sameOperands
  ⟨h.op, h.ch, h.id1, h.id2, h.len, h.rakl, h.bIdcmd, h.bMptr, h.bLsta, h.cstat, h.inputs, h.cfg⟩

theorem State.beginTransaction_sameOperands (s : State) : SameOperands s s.beginTransaction := by
  unfold State.beginTransaction
  split
  · constructor <;> rfl
  · exact s.finish_sameOperands

theorem State.collect_sameOperands (s : State) : SameOperands s s.collect := by
  unfold State.collect
  repeat' split
  all_goals constructor <;> rfl

theorem State.nextTransaction_sameOperands (s : State) : SameOperands s s.nextTransaction := by
  have h := s.collect_sameOperands
  have h' : SameOperands s { s.collect with mstep := s.mstep + 1 } :=
    ⟨h.op, h.ch, h.id1, h.id2, h.len, h.rakl, h.bIdcmd, h.bMptr, h.bLsta, h.cstat, h.inputs, h.cfg⟩
  exact h'.trans (State.beginTransaction_sameOperands _)

theorem State.exchangePayload_sameOperands (s : State) : SameOperands s s.exchangePayload := by
  unfold State.exchangePayload
  split <;> constructor <;> rfl

theorem State.delay_sameOperands (s : State) (n : Nat) : SameOperands s (s.delay n) := by constructor <;> simp

/-- A move of the sequencer keeps the operands of the operation in progress. -/
theorem State.tick_sameOperands (s : State) : SameOperands s s.tick := by
  unfold State.tick
  split
  case h_1 => exact s.beginTransaction_sameOperands
  case h_8 =>
    have h := s.exchangePayload_sameOperands
    exact ⟨h.op, h.ch, h.id1, h.id2, h.len, h.rakl, h.bIdcmd, h.bMptr, h.bLsta, h.cstat, h.inputs, h.cfg⟩
  case h_11 => exact (s.delay_sameOperands _).trans (State.nextTransaction_sameOperands _)
  all_goals constructor <;> simp [State.payloadOrEnd]

/-- So does a run of it, and going on with an operation. -/
theorem State.run_sameOperands (k : Nat) (s : State) : SameOperands s (State.run k s) :=
  State.run_keeps (P := SameOperands s) (fun _ _ h => h.trans (State.tick_sameOperands _)) SameOperands.rfl k

theorem State.resume_sameOperands (s : State) : SameOperands s s.resume := s.run_sameOperands _

end Sys2Proof.Machine
end

