-- ==== Sys2Proof/Laws/Transaction.lean ====
section
/-! SUPPORT. The common transaction in closed form (40_register_access.md R70): what a frame that is never held does, and what a
chain of frames does. These are what a proof about an operation cites instead of unfolding the sequencer. -/

namespace Sys2Proof.Machine

/-! ## Reading and writing depend on OP alone -/

theorem State.reads_congr {s t : State} (h : t.op = s.op) : t.reads = s.reads := by
  simp [State.reads, State.opcode, h]

theorem State.opcode_congr {s t : State} (h : t.op = s.op) : t.opcode = s.opcode := by
  simp [State.opcode, h]

/-! ## The payload -/

/-- The byte a payload exchange sends at index `j` (R51). -/
def State.payloadByte (s : State) (j : Nat) : Byte := if s.reads then filler else s.dbuf.read j

/-- `sent` is what the payload exchanges from index `j` on send. -/
def State.Sends (s : State) (j : Nat) (sent : List Byte) : Prop :=
  ∀ k b, sent[k]? = some b → b = s.payloadByte (j + k)

/-- The state after the payload exchanges that send `sent`. -/
def State.payloadDone (s : State) (sent : List Byte) : State :=
  { s with
    ph := .deselect
    i := s.i + BitVec.ofNat 8 sent.length
    rx := if sent.length = 0 then s.rx else s.answer (sent.length - 1)
    trace := s.trace ++ payloadTrace s.cfg sent s.answer
    transport := s.transport.skip sent.length
    r := if s.reads then s.r ++ (List.range sent.length).map s.answer else s.r }

/-- One payload exchange and its delay slot, where the Transport completes everything. -/
def State.payloadMove (s : State) (b : Byte) : State :=
  { s with
    i := s.i + 1
    rx := s.answer 0
    trace := s.trace ++ .x b (s.answer 0) :: slot s.cfg.tData
    transport := s.transport.skip 1
    r := if s.reads then s.r ++ [s.answer 0] else s.r }

theorem State.next_eq_answer (s : State) : s.transport.next = s.answer 0 := Transport.next_eq_answer _

theorem State.delay_transport_of_none {s : State} (h : s.Completes) (n : Nat) :
    (s.delay n).transport = s.transport := by
  simp [Transport.complete_of_none h]

/-- Two moves of the sequencer perform one payload exchange. -/
theorem State.run_payloadMove {s : State} (hb : s.busy = true) (hc : s.Completes) (hi : s.i < s.n) (m : Nat) :
    State.run (m + 2) s.payloadOrEnd = State.run m (s.payloadMove (s.payloadByte s.i.toNat)).payloadOrEnd := by
  have h1 : s.payloadOrEnd = { s with ph := .data } := by simp [State.payloadOrEnd, hi]
  have hx : s.transport.completeExchange = s.transport.skip 1 := Transport.completeExchange_of_none hc
  have hcr : (s.transport.skip 1).credit = none := hc
  have hcp : (s.transport.skip 1).complete = s.transport.skip 1 := Transport.complete_of_none hcr
  rw [h1]
  refine (State.run_move (by exact hb) (by exact hc) _).trans ?_
  have h2 : State.tick { s with ph := .data } =
      { s with
        ph := .wData
        rx := s.answer 0
        trace := s.trace ++ [.x (s.payloadByte s.i.toNat) (s.answer 0)]
        transport := s.transport.skip 1
        r := if s.reads then s.r ++ [s.answer 0] else s.r } := by
    simp only [State.tick, State.exchangePayload, State.payloadByte, ← State.next_eq_answer]
    have hr : State.reads { s with ph := .data } = s.reads := State.reads_congr rfl
    rw [hr]
    cases s.reads <;> simp [State.xchg, State.record, hx]
  rw [h2]
  refine (State.run_move (by exact hb) (by exact hcr) _).trans ?_
  congr 1
  simp only [State.tick, State.payloadMove]
  ext1 <;> simp [State.payloadOrEnd, hcp]

/-- The payload of a frame that is never held: `sent` is sent from index `I` on, and `I` reaches `N`. -/
theorem State.run_payload {s : State} (hb : s.busy = true) (hc : s.Completes) (sent : List Byte)
    (hlen : s.i.toNat + sent.length = s.n.toNat) (hs : s.Sends s.i.toNat sent) (m : Nat) :
    State.run (2 * sent.length + m) s.payloadOrEnd = State.run m (s.payloadDone sent) := by
  induction sent generalizing s with
  | nil =>
    have h1 : ¬ s.i < s.n := by
      simp only [List.length_nil, Nat.add_zero] at hlen
      simp [BitVec.lt_def, hlen]
    congr 1
    · simp
    · ext1 <;> simp [State.payloadOrEnd, State.payloadDone, payloadTrace, h1]
  | cons b bs ih =>
    simp only [List.length_cons] at hlen
    have hn := s.n.isLt
    have hi : s.i < s.n := by rw [BitVec.lt_def]; omega
    have hb0 : b = s.payloadByte s.i.toNat := hs 0 b rfl
    have hcarry : (s.i + 1).toNat = s.i.toNat + 1 := by
      rw [BitVec.toNat_add, show (1 : Byte).toNat = 1 from rfl]; omega
    rw [List.length_cons, show 2 * (bs.length + 1) + m = (2 * bs.length + m) + 2 by omega,
      State.run_payloadMove hb hc hi, ← hb0]
    have hr : (s.payloadMove b).reads = s.reads := State.reads_congr rfl
    rw [ih (s := s.payloadMove b) hb hc (by simp only [State.payloadMove]; omega) ?_]
    · congr 1
      have ha : ∀ k, (s.payloadMove b).answer k = s.answer (k + 1) := fun k => by
        simp [State.payloadMove, State.answer, Nat.add_comm]
      have hcfg : (s.payloadMove b).cfg = s.cfg := rfl
      have hfun : (s.payloadMove b).answer = fun k => s.answer (k + 1) := funext ha
      simp only [State.payloadDone, ha, hr, hcfg, hfun]
      ext1 <;> simp only [State.payloadMove, payloadTrace, List.length_cons]
      · rw [BitVec.add_assoc, show (1 : Byte) = BitVec.ofNat 8 1 from rfl, ← BitVec.ofNat_add, Nat.add_comm]
      · cases bs <;> simp
      · cases s.reads <;> simp [List.range_succ_eq_map, Function.comp_def]
      · simp
      · simp [Nat.add_comm]
    · intro k b' hk
      have := hs (k + 1) b' (by simpa using hk)
      simp only [State.payloadByte, hr] at this ⊢
      rw [this]
      simp only [State.payloadMove, hcarry, Nat.add_assoc, Nat.add_comm 1 k]

/-! ## The frame -/

/-- ERRCNT after one check (R8, R151). -/
def bump (p : Params) (ok : Prop) [Decidable ok] (e : Nat) : Nat := if ok then e else (e + 1) % 2 ^ p.errcntW

/-- ERRCNT after the two checks of a frame, the address check first (R78, R159). -/
def frameErrcnt (p : Params) (ans : Nat → Byte) (e : Nat) : Nat :=
  bump p (ans 1 = p.cmdAck) (bump p (ans 0 = p.addrAck) e)

/-- The two checks of a frame add the number that fail, modulo `2^ERRCNT_W`. -/
theorem frameErrcnt_eq {p : Params} {ans : Nat → Byte} {e : Nat} (h : e < 2 ^ p.errcntW) :
    frameErrcnt p ans e = (e + frameMisses p ans) % 2 ^ p.errcntW := by
  unfold frameErrcnt bump frameMisses
  by_cases h0 : ans 0 = p.addrAck <;> by_cases h1 : ans 1 = p.cmdAck <;> simp [h0, h1, Nat.mod_eq_of_lt h, Nat.add_assoc]

/-- The state after a frame that sends `sent` as its payload, all its delay slots over. -/
def State.frameDone (s : State) (sent : List Byte) : State :=
  { s with
    ph := .wDesel
    selline := false
    i := BitVec.ofNat 8 sent.length
    rx := s.answer (1 + sent.length)
    trace := s.trace ++ frameTrace s.cfg s.c ⟨s.a, sent⟩ s.answer
    errcnt := frameErrcnt s.cfg s.answer s.errcnt
    transport := s.transport.skip (2 + sent.length)
    r := if s.reads then s.r ++ (List.range sent.length).map fun k => s.answer (k + 2) else s.r }

/-- The state of a frame when its payload begins: handshake done, both checks made. -/
def State.handshakeDone (s : State) : State :=
  { s with
    ph := .wCmd
    selline := true
    rx := s.answer 1
    trace := s.trace ++ [.sel] ++ slot s.cfg.tSel ++ [.x s.a (s.answer 0)] ++ slot s.cfg.tAddr
      ++ [.x s.c (s.answer 1)] ++ slot s.cfg.tCmd
    errcnt := frameErrcnt s.cfg s.answer s.errcnt
    transport := s.transport.skip 2 }

/-- Six moves of the sequencer perform the handshake (R70). -/
theorem State.run_handshake {s : State} (hb : s.busy = true) (hc : s.Completes) (hp : s.ph = .select) (m : Nat) :
    State.run (m + 6) s = State.run m s.handshakeDone.payloadOrEnd := by
  have hn : ∀ k, (s.transport.skip k).next = s.answer k := fun k => by
    rw [Transport.next_eq_answer, Transport.skip_answer]; rfl
  have hx : ∀ k, (s.transport.skip k).completeExchange = s.transport.skip (k + 1) := fun k => by
    rw [Transport.completeExchange_of_none (x := s.transport.skip k) hc, Transport.skip_skip]
  have hcp : ∀ k, (s.transport.skip k).complete = s.transport.skip k := fun k =>
    Transport.complete_of_none (x := s.transport.skip k) hc
  have t1 : s.tick = { s with ph := .wSel, selline := true, trace := s.trace ++ [LinkEvent.sel] } := by
    simp only [State.tick, hp]; rfl
  have t2 : State.tick { s with ph := .wSel, selline := true, trace := s.trace ++ [LinkEvent.sel] } =
      { s with ph := .addr, selline := true, trace := s.trace ++ [LinkEvent.sel] ++ slot s.cfg.tSel } := by
    simp only [State.tick]
    ext1 <;> simp [Transport.complete_of_none hc]
  have t3 : State.tick { s with ph := .addr, selline := true, trace := s.trace ++ [LinkEvent.sel] ++ slot s.cfg.tSel } =
      { s with ph := .wAddr, selline := true, rx := s.answer 0,
               trace := s.trace ++ [LinkEvent.sel] ++ slot s.cfg.tSel ++ [LinkEvent.x s.a (s.answer 0)],
               errcnt := bump s.cfg (s.answer 0 = s.cfg.addrAck) s.errcnt, transport := s.transport.skip 1 } := by
    simp only [State.tick]
    ext1 <;> simp [State.next_eq_answer, Transport.completeExchange_of_none hc, bump]
  have t4 : State.tick { s with ph := .wAddr, selline := true, rx := s.answer 0,
                                trace := s.trace ++ [LinkEvent.sel] ++ slot s.cfg.tSel ++ [LinkEvent.x s.a (s.answer 0)],
                                errcnt := bump s.cfg (s.answer 0 = s.cfg.addrAck) s.errcnt,
                                transport := s.transport.skip 1 } =
      { s with ph := .cmd, selline := true, rx := s.answer 0,
               trace := s.trace ++ [LinkEvent.sel] ++ slot s.cfg.tSel ++ [LinkEvent.x s.a (s.answer 0)] ++ slot s.cfg.tAddr,
               errcnt := bump s.cfg (s.answer 0 = s.cfg.addrAck) s.errcnt, transport := s.transport.skip 1 } := by
    simp only [State.tick]
    ext1 <;> simp [hcp]
  have t5 : State.tick { s with ph := .cmd, selline := true, rx := s.answer 0,
                                trace := s.trace ++ [LinkEvent.sel] ++ slot s.cfg.tSel ++ [LinkEvent.x s.a (s.answer 0)] ++ slot s.cfg.tAddr,
                                errcnt := bump s.cfg (s.answer 0 = s.cfg.addrAck) s.errcnt,
                                transport := s.transport.skip 1 } =
      { s with ph := .wCmd, selline := true, rx := s.answer 1,
               trace := s.trace ++ [LinkEvent.sel] ++ slot s.cfg.tSel ++ [LinkEvent.x s.a (s.answer 0)] ++ slot s.cfg.tAddr
                 ++ [LinkEvent.x s.c (s.answer 1)],
               errcnt := frameErrcnt s.cfg s.answer s.errcnt, transport := s.transport.skip 2 } := by
    simp only [State.tick]
    ext1 <;> simp [hn, hx, bump, frameErrcnt]
  have t6 : State.tick { s with ph := .wCmd, selline := true, rx := s.answer 1,
                                trace := s.trace ++ [LinkEvent.sel] ++ slot s.cfg.tSel ++ [LinkEvent.x s.a (s.answer 0)] ++ slot s.cfg.tAddr
                                  ++ [LinkEvent.x s.c (s.answer 1)],
                                errcnt := frameErrcnt s.cfg s.answer s.errcnt, transport := s.transport.skip 2 } =
      s.handshakeDone.payloadOrEnd := by
    simp only [State.tick]
    congr 1
    ext1 <;> simp [hcp, State.handshakeDone]
  refine (State.run_move (by exact hb) (by exact hc) _).trans ?_
  rw [t1]
  refine (State.run_move (by exact hb) (by exact hc) _).trans ?_
  rw [t2]
  refine (State.run_move (by exact hb) (by exact hc) _).trans ?_
  rw [t3]
  refine (State.run_move (by exact hb) (by exact hc) _).trans ?_
  rw [t4]
  refine (State.run_move (by exact hb) (by exact hc) _).trans ?_
  rw [t5]
  refine (State.run_move (by exact hb) (by exact hc) _).trans ?_
  rw [t6]

/-- A frame that is never held, from its `Select()` to the end of its last delay slot (R70, R71). -/
theorem State.run_frame {s : State} (hb : s.busy = true) (hc : s.Completes) (hp : s.ph = .select) (hi : s.i = 0)
    (sent : List Byte) (hlen : sent.length = s.n.toNat) (hs : s.Sends 0 sent) (m : Nat) :
    State.run (8 + 2 * sent.length + m) s = State.run m (s.frameDone sent).nextTransaction := by
  have hr1 : s.handshakeDone.reads = s.reads := State.reads_congr rfl
  rw [show 8 + 2 * sent.length + m = 2 * sent.length + (m + 2) + 6 by omega, State.run_handshake hb hc hp,
    State.run_payload (s := s.handshakeDone) hb hc sent (by simp [State.handshakeDone, hi, hlen]) ?_]
  · have ha : s.handshakeDone.answer = fun k => s.answer (k + 2) := funext fun k => by
      simp [State.handshakeDone, State.answer, Nat.add_comm]
    have hd : ∀ t : State, t.busy = true → t.Completes → t.ph = .deselect → ∀ k, State.run (k + 2) t =
        State.run k ({ t with
          ph := .wDesel, selline := false, trace := t.trace ++ [LinkEvent.desel] ++ slot t.cfg.tDesel }.nextTransaction) := by
      intro t hb hc hp k
      refine (State.run_move hb hc _).trans ?_
      have h1 : t.tick = { t with ph := .wDesel, selline := false, trace := t.trace ++ [LinkEvent.desel] } := by
        simp only [State.tick, hp]; rfl
      rw [h1]
      refine (State.run_move (by exact hb) (by exact hc) _).trans ?_
      simp only [State.tick]
      congr 2
      ext1 <;> simp [Transport.complete_of_none hc]
    rw [hd (s.handshakeDone.payloadDone sent) hb hc rfl]
    congr 2
    simp only [State.payloadDone, ha, hr1]
    ext1 <;> simp only [State.handshakeDone, State.frameDone]
    · simp [hi]
    · rcases Nat.eq_zero_or_pos sent.length with h | h
      · simp [h]
      · rw [if_neg (by omega)]; congr 1; omega
    · simp [frameTrace]
    · simp
  · intro k b hk
    have := hs k b hk
    simp only [State.payloadByte, hr1] at this ⊢
    simpa [State.handshakeDone, hi] using this

end Sys2Proof.Machine
end

