-- ==== Sys2Proof/Laws/Chain.lean ====
section
/-! SUPPORT. A whole operation as a chain of frames: what is left once every transaction has ended, in closed form. A proof about an
operation builds its chain and cites `State.performed_of_chain`. -/

namespace Sys2Proof.Machine

/-! ## One transaction -/

/-- The state when transaction `f` is at its `Select()` (R70). -/
def State.begun (s : State) (f : Frame) : State :=
  { s with
    a := f.addr
    c := s.controlByte
    n := f.count
    i := 0
    dbuf := match f.data with
      | some v => s.dbuf.write 0 v
      | none => s.dbuf
    r := []
    ph := .select }

theorem State.beginTransaction_some {s : State} {f : Frame} (h : s.currentFrame = some f) :
    s.beginTransaction = s.begun f := by
  simp only [State.beginTransaction, h]; rfl

theorem State.beginTransaction_none {s : State} (h : s.currentFrame = none) : s.beginTransaction = s.finish := by
  simp only [State.beginTransaction, h]

/-- The state after transaction `f`, its payload `sent`, with the next one not yet begun. -/
def State.afterTransaction (s : State) (f : Frame) (sent : List Byte) : State :=
  { ((s.begun f).frameDone sent).collect with mstep := s.mstep + 1 }

/-- `sent` is the payload transaction `f` sends: fillers, the byte of `wr`, or DBUF as it stands (R51, R81). -/
def State.PayloadOf (s : State) (f : Frame) (sent : List Byte) : Prop :=
  sent.length = f.count.toNat ∧ (s.begun f).Sends 0 sent

theorem State.begun_payloadByte (s : State) (f : Frame) (j : Nat) :
    (s.begun f).payloadByte j = if s.reads then filler else (s.begun f).dbuf.read j := by
  simp only [State.payloadByte, State.reads_congr (s := s) (t := s.begun f) rfl]

/-- A reading transaction sends fillers (R51). -/
theorem State.payloadOf_read {s : State} (hr : s.reads = true) (f : Frame) :
    s.PayloadOf f (List.replicate f.count.toNat filler) := by
  refine ⟨by simp, fun k b hk => ?_⟩
  rw [State.begun_payloadByte, if_pos hr]
  exact (List.getElem?_replicate.symm.trans hk |> fun h => by simpa using (Option.ite_none_right_eq_some.mp h).2.symm)

/-- A single write sends its one byte (R81). -/
theorem State.payloadOf_single {s : State} (hr : s.reads = false) (hd : s.dbuf.wf = true) (a v : Byte) :
    s.PayloadOf (.single a v) [v] := by
  refine ⟨rfl, fun k b hk => ?_⟩
  rw [State.begun_payloadByte, if_neg (by simp [hr])]
  obtain rfl : k = 0 := by
    rcases k with _ | k
    · rfl
    · simp at hk
  obtain rfl : v = b := by simpa using hk
  exact (Memory.read_write_same (Memory.wf_pairwise hd)).symm

/-- A block write sends DBUF as it stands (R81). -/
theorem State.payloadOf_block {s : State} (hr : s.reads = false) (a n : Byte) {d : List Byte} (hl : d.length = n.toNat)
    (hd : ∀ k b, d[k]? = some b → b = s.dbuf.read k) : s.PayloadOf (.block a n) d := by
  refine ⟨hl, fun k b hk => ?_⟩
  rw [State.begun_payloadByte, if_neg (by simp [hr]), Nat.zero_add]
  exact hd k b hk

/-- One transaction that is never held, in closed form. -/
theorem State.run_transaction {s : State} (hb : s.busy = true) (hc : s.Completes) {f : Frame}
    (hf : s.currentFrame = some f) {sent : List Byte} (hs : s.PayloadOf f sent) (m : Nat) :
    State.run (8 + 2 * sent.length + m) s.beginTransaction =
      State.run m (s.afterTransaction f sent).beginTransaction := by
  have hm : ((s.begun f).frameDone sent).mstep = s.mstep := rfl
  rw [State.beginTransaction_some hf, State.run_frame (s := s.begun f) hb hc rfl rfl sent hs.1 hs.2,
    State.nextTransaction, hm]
  rfl

/-- What one transaction leaves to the next: everything but the transaction's own latches, the history and RDMSG's
intermediate values. -/
structure SameBlock (s t : State) : Prop extends SameOperands s t where
  busy : t.busy = s.busy
  rbuf : t.rbuf = s.rbuf
  rlen : t.rlen = s.rlen
  epoch : t.epoch = s.epoch

theorem SameBlock.rfl {s : State} : SameBlock s s := ⟨SameOperands.rfl, Eq.refl _, Eq.refl _, Eq.refl _, Eq.refl _⟩

theorem SameBlock.trans {s t u : State} (h : SameBlock s t) (h' : SameBlock t u) : SameBlock s u :=
  ⟨h.toSameOperands.trans h'.toSameOperands, h'.busy.trans h.busy, h'.rbuf.trans h.rbuf, h'.rlen.trans h.rlen,
    h'.epoch.trans h.epoch⟩

theorem State.collect_sameBlock (s : State) : SameBlock s s.collect := by
  refine ⟨s.collect_sameOperands, ?_, ?_, ?_, ?_⟩ <;> (unfold State.collect; repeat' split) <;> rfl

theorem State.afterTransaction_sameBlock (s : State) (f : Frame) (sent : List Byte) :
    SameBlock s (s.afterTransaction f sent) := by
  have h := ((s.begun f).frameDone sent).collect_sameBlock
  exact ⟨⟨h.op, h.ch, h.id1, h.id2, h.len, h.rakl, h.bIdcmd, h.bMptr, h.bLsta, h.cstat, h.inputs, h.cfg⟩,
    h.busy, h.rbuf, h.rlen, h.epoch⟩

/-- What collecting leaves alone besides. -/
theorem State.collect_rest (s : State) :
    s.collect.trace = s.trace ∧ s.collect.errcnt = s.errcnt ∧ s.collect.transport = s.transport ∧
    s.collect.selline = s.selline ∧ s.collect.a = s.a ∧ s.collect.c = s.c ∧ s.collect.n = s.n ∧
    s.collect.i = s.i ∧ s.collect.dbuf = s.dbuf ∧ s.collect.rx = s.rx ∧ s.collect.r = s.r := by
  unfold State.collect
  repeat' split
  all_goals exact ⟨rfl, rfl, rfl, rfl, rfl, rfl, rfl, rfl, rfl, rfl, rfl⟩

section
variable (s : State) (f : Frame) (sent : List Byte)

@[simp] theorem State.afterTransaction_trace : (s.afterTransaction f sent).trace =
    s.trace ++ frameTrace s.cfg s.controlByte ⟨f.addr, sent⟩ s.answer :=
  (State.collect_rest _).1

@[simp] theorem State.afterTransaction_errcnt : (s.afterTransaction f sent).errcnt =
    frameErrcnt s.cfg s.answer s.errcnt :=
  (State.collect_rest _).2.1

@[simp] theorem State.afterTransaction_transport : (s.afterTransaction f sent).transport =
    s.transport.skip (2 + sent.length) :=
  (State.collect_rest _).2.2.1

@[simp] theorem State.afterTransaction_selline : (s.afterTransaction f sent).selline = false :=
  (State.collect_rest _).2.2.2.1

@[simp] theorem State.afterTransaction_a : (s.afterTransaction f sent).a = f.addr :=
  (State.collect_rest _).2.2.2.2.1

@[simp] theorem State.afterTransaction_c : (s.afterTransaction f sent).c = s.controlByte :=
  (State.collect_rest _).2.2.2.2.2.1

@[simp] theorem State.afterTransaction_n : (s.afterTransaction f sent).n = f.count :=
  (State.collect_rest _).2.2.2.2.2.2.1

@[simp] theorem State.afterTransaction_dbuf : (s.afterTransaction f sent).dbuf = (s.begun f).dbuf :=
  (State.collect_rest _).2.2.2.2.2.2.2.2.1

@[simp] theorem State.afterTransaction_rx : (s.afterTransaction f sent).rx = s.answer (1 + sent.length) :=
  (State.collect_rest _).2.2.2.2.2.2.2.2.2.1

@[simp] theorem State.afterTransaction_r : (s.afterTransaction f sent).r =
    if s.reads then (List.range sent.length).map fun k => s.answer (k + 2) else [] := by
  refine (State.collect_rest _).2.2.2.2.2.2.2.2.2.2.trans ?_
  simp only [State.frameDone]
  have hr : (s.begun f).reads = s.reads := State.reads_congr rfl
  rw [hr]
  cases s.reads <;> rfl

@[simp] theorem State.afterTransaction_mstep : (s.afterTransaction f sent).mstep = s.mstep + 1 := rfl

@[simp] theorem State.afterTransaction_opcode : (s.afterTransaction f sent).opcode = s.opcode :=
  State.opcode_congr (State.afterTransaction_sameBlock s f sent).op

@[simp] theorem State.afterTransaction_answer (k : Nat) :
    (s.afterTransaction f sent).answer k = s.answer (2 + sent.length + k) := by
  simp [State.answer]

/-- Where the operation is not RDMSG, a transaction leaves RDMSG's intermediate values and PTR alone. -/
theorem State.collect_of_not_rdmsg {s : State} (h : s.opcode ≠ some .rdmsg) : s.collect = s := by
  unfold State.collect
  split
  · contradiction
  · rfl

/-- The other fields of the state after a transaction, where the operation is not RDMSG. -/
theorem State.afterTransaction_rest (h : s.opcode ≠ some .rdmsg) :
    (s.afterTransaction f sent).ptr = s.ptr ∧ (s.afterTransaction f sent).b0 = s.b0 ∧
    (s.afterTransaction f sent).b1 = s.b1 ∧ (s.afterTransaction f sent).p = s.p ∧
    (s.afterTransaction f sent).sta = s.sta := by
  have h' : ((s.begun f).frameDone sent).opcode ≠ some .rdmsg := h
  unfold State.afterTransaction
  rw [State.collect_of_not_rdmsg h']
  exact ⟨rfl, rfl, rfl, rfl, rfl⟩

end

/-! ## Chains -/

/-- `Chain s fs t`: from `s`, whose next transaction is not yet begun, the transactions `fs` with their payloads lead
to `t`. -/
inductive Chain : State → List (Frame × List Byte) → State → Prop where
  | nil (s : State) : Chain s [] s
  | cons {s t : State} {f : Frame} {sent : List Byte} {fs : List (Frame × List Byte)} (hf : s.currentFrame = some f)
      (hs : s.PayloadOf f sent) (h : Chain (s.afterTransaction f sent) fs t) : Chain s ((f, sent) :: fs) t

/-- The frames of a chain as the link sees them. -/
def linkFrames (fs : List (Frame × List Byte)) : List LinkFrame := fs.map fun x => ⟨x.1.addr, x.2⟩

/-- How many moves of the sequencer a chain takes. -/
def chainMoves : List (Frame × List Byte) → Nat
  | [] => 0
  | x :: fs => 8 + 2 * x.2.length + chainMoves fs

theorem Chain.sameBlock {s t : State} {fs : List (Frame × List Byte)} (h : Chain s fs t) : SameBlock s t := by
  induction h with
  | nil => exact SameBlock.rfl
  | cons _ _ _ ih => exact (State.afterTransaction_sameBlock _ _ _).trans ih

theorem Chain.run {s t : State} {fs : List (Frame × List Byte)} (h : Chain s fs t) (hb : s.busy = true)
    (hc : s.Completes) (m : Nat) :
    State.run (chainMoves fs + m) s.beginTransaction = State.run m t.beginTransaction := by
  induction h with
  | nil => simp [chainMoves]
  | @cons s t f sent fs hf hs _ ih =>
    rw [chainMoves, Nat.add_assoc, State.run_transaction hb hc hf hs]
    refine ih ?_ ?_
    · exact (State.afterTransaction_sameBlock s f sent).busy.trans hb
    · simpa [State.Completes] using hc

theorem Chain.trace {s t : State} {fs : List (Frame × List Byte)} (h : Chain s fs t) :
    t.trace = s.trace ++ framesTrace s.cfg s.controlByte (linkFrames fs) s.answer := by
  induction h with
  | nil => simp [linkFrames, framesTrace]
  | @cons s t f sent fs _ _ _ ih =>
    have hsb := State.afterTransaction_sameBlock s f sent
    have hcb : (s.afterTransaction f sent).controlByte = s.controlByte := by
      simp [State.controlByte, State.reads_congr hsb.op, hsb.cfg]
    have ha : (s.afterTransaction f sent).answer = fun k => s.answer (2 + sent.length + k) :=
      funext (State.afterTransaction_answer s f sent)
    rw [ih, hcb, hsb.cfg, State.afterTransaction_trace, ha, List.append_assoc]
    simp [linkFrames, framesTrace, LinkFrame.exchanges, Nat.add_comm]

theorem Chain.transport {s t : State} {fs : List (Frame × List Byte)} (h : Chain s fs t) :
    t.transport = s.transport.skip (framesExchanges (linkFrames fs)) := by
  induction h with
  | nil => simp [linkFrames, framesExchanges]
  | cons _ _ _ ih => rw [ih]; simp [linkFrames, framesExchanges, LinkFrame.exchanges]

theorem frameErrcnt_lt {p : Params} {ans : Nat → Byte} {e : Nat} (h : e < 2 ^ p.errcntW) :
    frameErrcnt p ans e < 2 ^ p.errcntW := by
  rw [frameErrcnt_eq h]; exact Nat.mod_lt _ (Nat.two_pow_pos _)

theorem Chain.errcnt {s t : State} {fs : List (Frame × List Byte)} (h : Chain s fs t) (he : s.ErrcntInRange) :
    t.errcnt = (s.errcnt + framesMisses s.cfg (linkFrames fs) s.answer) % 2 ^ s.cfg.errcntW := by
  induction h with
  | nil => simp [linkFrames, framesMisses, Nat.mod_eq_of_lt he]
  | @cons s t f sent fs _ _ _ ih =>
    have hsb := State.afterTransaction_sameBlock s f sent
    have ha : (s.afterTransaction f sent).answer = fun k => s.answer (2 + sent.length + k) :=
      funext (State.afterTransaction_answer s f sent)
    have he' : (s.afterTransaction f sent).ErrcntInRange := by
      simpa [State.ErrcntInRange, hsb.cfg] using frameErrcnt_lt he
    rw [ih he', hsb.cfg, State.afterTransaction_errcnt, ha, frameErrcnt_eq he]
    simp [linkFrames, framesMisses, LinkFrame.exchanges, Nat.add_comm, Nat.add_assoc]

theorem Chain.selline {s t : State} {fs : List (Frame × List Byte)} (h : Chain s fs t) (hs : s.selline = false) :
    t.selline = false := by
  induction h with
  | nil => exact hs
  | cons _ _ _ ih => exact ih (State.afterTransaction_selline _ _ _)

/-- What the end of an operation leaves alone besides. -/
theorem State.deliverResult_rest (s : State) :
    s.deliverResult.trace = s.trace ∧ s.deliverResult.errcnt = s.errcnt ∧ s.deliverResult.transport = s.transport ∧
    s.deliverResult.selline = s.selline := by
  unfold State.deliverResult
  split <;> exact ⟨rfl, rfl, rfl, rfl⟩

/-- A whole operation that is never held. `s₀` is the block when the descriptor has been accepted and the latches loaded,
`fs` its transactions, `t` the state when they have ended. -/
theorem State.performed_of_chain {s s₀ t : State} {fs : List (Frame × List Byte)}
    (hb : s₀.busy = true) (hok : s₀.cstat = .ok) (hph : s₀.ph = .idle) (hsel : s₀.selline = false)
    (htr : s₀.trace = s.trace) (her : s₀.errcnt = s.errcnt) (htp : s₀.transport = s.transport)
    (hin : s₀.inputs = s.inputs) (hcfg : s₀.cfg = s.cfg) (hc : s.Completes) (he : s.ErrcntInRange)
    (h : Chain s₀ fs t) (ht : t.currentFrame = none) (hm : chainMoves fs < moveBound) :
    s₀.resume = t.finish ∧ Performed s₀.controlByte (linkFrames fs) s t.finish := by
  have hc0 : s₀.Completes := by simpa [State.Completes, htp] using hc
  have he0 : s₀.ErrcntInRange := by simpa [State.ErrcntInRange, her, hcfg] using he
  have ha : s₀.answer = s.answer := by funext k; simp [State.answer, htp]
  constructor
  · obtain ⟨m, hm'⟩ : ∃ m, moveBound = (chainMoves fs + m) + 1 := ⟨moveBound - chainMoves fs - 1, by omega⟩
    have htick : s₀.tick = s₀.beginTransaction := by simp [State.tick, hph]
    rw [State.resume, hm', State.run_move hb hc0, htick, h.run hb hc0, State.beginTransaction_none ht]
    exact State.run_of_not_running (State.not_running_of_idle (by rfl)) m
  · have hd := t.deliverResult_rest
    have ho := t.deliverResult_sameOperands
    refine ⟨?_, ?_, ?_, rfl, ?_, ?_, rfl, rfl, rfl, ?_, ?_⟩
    · exact hd.1.trans (by rw [h.trace, htr, hcfg, ha])
    · exact hd.2.1.trans (by rw [h.errcnt he0, her, hcfg, ha])
    · exact hd.2.2.1.trans (by rw [h.transport, htp])
    · exact ho.cstat.trans (h.sameBlock.cstat.trans hok)
    · exact hd.2.2.2.trans (h.selline hsel)
    · exact ho.inputs.trans (h.sameBlock.inputs.trans hin)
    · exact ho.cfg.trans (h.sameBlock.cfg.trans hcfg)

end Sys2Proof.Machine
end

