-- ==== Sys2Proof/Laws/Checks.lean ====
section
/-! SUPPORT. The failed checks of a link trace: how they add up along a trace, and that those of a frame and of frames one after
another are what 40_register_access.md R78 counts. -/

namespace Sys2Proof.Machine

/-- The check the next exchange undergoes after the events of a trace. -/
def expectedAfter : Expected → List LinkEvent → Expected
  | e, [] => e
  | _, .sel :: t => expectedAfter .address t
  | _, .desel :: t => expectedAfter .nothing t
  | e, .dly _ :: t => expectedAfter e t
  | .address, .x _ _ :: t => expectedAfter .control t
  | .control, .x _ _ :: t => expectedAfter .nothing t
  | .nothing, .x _ _ :: t => expectedAfter .nothing t

theorem expectedAfter_append (e : Expected) (x y : List LinkEvent) :
    expectedAfter e (x ++ y) = expectedAfter (expectedAfter e x) y := by
  induction x generalizing e with
  | nil => rfl
  | cons a x ih => cases a <;> cases e <;> simp [expectedAfter, ih]

/-- The failed checks of a trace are those of its beginning and those of the rest. -/
theorem failedChecks_append (p : Params) (e : Expected) (x y : List LinkEvent) :
    failedChecks p e (x ++ y) = failedChecks p e x + failedChecks p (expectedAfter e x) y := by
  induction x generalizing e with
  | nil => simp [failedChecks, expectedAfter]
  | cons a x ih => cases a <;> cases e <;> simp [failedChecks, expectedAfter, ih, Nat.add_assoc]

@[simp] theorem failedChecks_slot (p : Params) (e : Expected) (n : Nat) : failedChecks p e (slot n) = 0 := by
  unfold slot; split <;> cases e <;> rfl

@[simp] theorem expectedAfter_slot (e : Expected) (n : Nat) : expectedAfter e (slot n) = e := by
  unfold slot; split <;> cases e <;> rfl

/-- The payload exchanges are not checked (R78). -/
@[simp] theorem failedChecks_payloadTrace (p q : Params) (bs : List Byte) (ans : Nat → Byte) :
    failedChecks p .nothing (payloadTrace q bs ans) = 0 ∧ expectedAfter .nothing (payloadTrace q bs ans) = .nothing := by
  induction bs generalizing ans with
  | nil => exact ⟨rfl, rfl⟩
  | cons b bs ih =>
    simp [payloadTrace, failedChecks, expectedAfter, failedChecks_append, expectedAfter_append, ih]

/-- The failed checks of one frame, whatever was expected before it (R78). -/
theorem failedChecks_frameTrace (p : Params) (e : Expected) (c : Byte) (f : LinkFrame) (ans : Nat → Byte) :
    failedChecks p e (frameTrace p c f ans) = frameMisses p ans ∧ expectedAfter e (frameTrace p c f ans) = .nothing := by
  simp [frameTrace, failedChecks, expectedAfter, failedChecks_append, expectedAfter_append, frameMisses]

/-- The failed checks of frames one after another. -/
theorem failedChecks_framesTrace (p : Params) (c : Byte) (fs : List LinkFrame) (ans : Nat → Byte) :
    failedChecks p .nothing (framesTrace p c fs ans) = framesMisses p fs ans := by
  induction fs generalizing ans with
  | nil => rfl
  | cons f fs ih =>
    have h := failedChecks_frameTrace p .nothing c f ans
    simp [framesTrace, framesMisses, failedChecks_append, h, ih]

/-- Each frame has two checks (R78). -/
theorem frameMisses_le (p : Params) (ans : Nat → Byte) : frameMisses p ans ≤ 2 := by
  unfold frameMisses; split <;> split <;> decide

/-- Frames fail at most twice as many checks as there are frames (R152). -/
theorem framesMisses_le (p : Params) (fs : List LinkFrame) (ans : Nat → Byte) : framesMisses p fs ans ≤ 2 * fs.length := by
  induction fs generalizing ans with
  | nil => exact Nat.le_refl _
  | cons f fs ih =>
    have h := frameMisses_le p ans
    have h' := ih fun k => ans (k + f.exchanges)
    simp only [framesMisses, List.length_cons]
    omega

end Sys2Proof.Machine
end

