-- ==== Sys2Proof/Laws/PerInstr.lean ====
section
/-! SUPPORT. Statements about every operation as syntax, one lemma per constructor. `DescriptorLength`: the descriptor of a
well-formed operation has exactly the length its own bytes announce (30_encoding.md R59), its first byte names the operation, and
no descriptor is longer than 261 bytes (R59: `6 + len`). -/

namespace Sys2Proof.Laws

/-- The descriptor of a well-formed operation is as long as R59 says, and its `op` byte is the operation's. -/
def DescriptorLength.Statement (i : Instr) : Prop :=
  i.wf = true → (encode i).length = i.opcode.format.length (fun k => (encode i).getD k 0) ∧
    (encode i).head? = some i.opcode.code ∧ (encode i).length ≤ 261

/-- The count byte of a payload that fits one is its length. -/
theorem countByte_toNat {d : List Byte} (h : d.length ≤ 255) : (countByte d).toNat = d.length := by
  simp only [countByte, BitVec.toNat_ofNat]
  omega

theorem DescriptorLength.wrreg (a : Byte) (v : Byte) : DescriptorLength.Statement (.wrreg a v) :=
  fun _ => ⟨rfl, rfl, by simp [encode, Instr.operandBytes]⟩

theorem DescriptorLength.wrblk (a : Byte) (d : List Byte) : DescriptorLength.Statement (.wrblk a d) := by
  intro h
  have hd : d.length ≤ 255 := of_decide_eq_true h
  simp only [encode, Instr.operandBytes, Instr.opcode, Opcode.format, Format.length, List.length_cons, List.getD_cons_succ,
    List.getD_cons_zero, countByte_toNat hd, List.head?_cons, true_and]
  omega

theorem DescriptorLength.rdreg (a : Byte) : DescriptorLength.Statement (.rdreg a) :=
  fun _ => ⟨rfl, rfl, by simp [encode, Instr.operandBytes]⟩

theorem DescriptorLength.rdblk (a : Byte) (n : Byte) : DescriptorLength.Statement (.rdblk a n) :=
  fun _ => ⟨rfl, rfl, by simp [encode, Instr.operandBytes]⟩

theorem DescriptorLength.chdis (ch : Byte) : DescriptorLength.Statement (.chdis ch) :=
  fun _ => ⟨rfl, rfl, by simp [encode, Instr.operandBytes]⟩

theorem DescriptorLength.chtx (ch : Byte) (i1 : Byte) (i2 : Nibble) (rak : Bool) (d : List Byte) : DescriptorLength.Statement (.chtx ch i1 i2 rak d) := by
  intro h
  have hd : d.length ≤ 255 := of_decide_eq_true h
  simp only [encode, Instr.operandBytes, Instr.opcode, Opcode.format, Format.length, List.length_cons, List.getD_cons_succ,
    List.getD_cons_zero, countByte_toNat hd, List.head?_cons, true_and]
  omega

theorem DescriptorLength.chrx (ch : Byte) (i1 : Byte) (i2 : Nibble) (len : Byte) : DescriptorLength.Statement (.chrx ch i1 i2 len) :=
  fun _ => ⟨rfl, rfl, by simp [encode, Instr.operandBytes]⟩

theorem DescriptorLength.chrrn (ch : Byte) (i1 : Byte) (i2 : Nibble) (len : Byte) : DescriptorLength.Statement (.chrrn ch i1 i2 len) :=
  fun _ => ⟨rfl, rfl, by simp [encode, Instr.operandBytes]⟩

theorem DescriptorLength.chrr (ch : Byte) (i1 : Byte) (i2 : Nibble) (len : Byte) : DescriptorLength.Statement (.chrr ch i1 i2 len) :=
  fun _ => ⟨rfl, rfl, by simp [encode, Instr.operandBytes]⟩

theorem DescriptorLength.chir (ch : Byte) (i1 : Byte) (i2 : Nibble) (d : List Byte) : DescriptorLength.Statement (.chir ch i1 i2 d) := by
  intro h
  have hd : d.length ≤ 255 := of_decide_eq_true h
  simp only [encode, Instr.operandBytes, Instr.opcode, Opcode.format, Format.length, List.length_cons, List.getD_cons_succ,
    List.getD_cons_zero, countByte_toNat hd, List.head?_cons, true_and]
  omega

theorem DescriptorLength.chdr (ch : Byte) (i1 : Byte) (i2 : Nibble) (d : List Byte) : DescriptorLength.Statement (.chdr ch i1 i2 d) := by
  intro h
  have hd : d.length ≤ 255 := of_decide_eq_true h
  simp only [encode, Instr.operandBytes, Instr.opcode, Opcode.format, Format.length, List.length_cons, List.getD_cons_succ,
    List.getD_cons_zero, countByte_toNat hd, List.head?_cons, true_and]
  omega

theorem DescriptorLength.chrrd (ch : Byte) (i1 : Byte) (i2 : Nibble) (len : Byte) : DescriptorLength.Statement (.chrrd ch i1 i2 len) :=
  fun _ => ⟨rfl, rfl, by simp [encode, Instr.operandBytes]⟩

theorem DescriptorLength.rdmsg (ch : Byte) : DescriptorLength.Statement (.rdmsg ch) :=
  fun _ => ⟨rfl, rfl, by simp [encode, Instr.operandBytes]⟩

theorem DescriptorLength.lastch : DescriptorLength.Statement .lastch :=
  fun _ => ⟨rfl, rfl, by simp [encode, Instr.operandBytes]⟩

theorem DescriptorLength.rderr : DescriptorLength.Statement .rderr :=
  fun _ => ⟨rfl, rfl, by simp [encode, Instr.operandBytes]⟩

end Sys2Proof.Laws
end

