-- ==== Sys2Proof/Tests/Slice0.lean ====
section
/-! SUPPORT. The model's own tests. The expected values are those of spec/95_test_vectors.md (named in each comment) and
spec/96_test_programs.md, not the model's. The second half gives, for each obligation with hypotheses, a state and operands that
meet them. -/

namespace Sys2Proof.Tests

open Sys2Proof Sys2Proof.Machine

/-! ## Helpers -/

/-- A write frame with correct acknowledgements, `W[a: ds]` of 95 section 1; the discarded bytes are 0. -/
def wFrame (a : Byte) (ds : List Byte) : List LinkEvent :=
  [.sel, .x a 0xAA, .x 0xE0 0x55] ++ ds.map (fun d => .x d 0x00) ++ [.desel]

/-- A read frame with correct acknowledgements, `R[a: rs]` of 95 section 1. -/
def rFrame (a : Byte) (rs : List Byte) : List LinkEvent :=
  [.sel, .x a 0xAA, .x 0x60 0x55] ++ rs.map (fun r => .x 0xFF r) ++ [.desel]

/-- The four register writes of a configuration of the channel at `base`. -/
def cfgFrames (base idtag idcmd mptr lsta : Byte) : List LinkEvent :=
  wFrame base [idtag] ++ wFrame (base + 1) [idcmd] ++ wFrame (base + 2) [mptr] ++ wFrame (base + 3) [lsta]

/-- The bytes a target must return for a trace to come about. -/
def returnsOf (t : List LinkEvent) : List Byte :=
  t.filterMap fun e =>
    match e with
    | .x _ r => some r
    | .sel | .dly _ | .desel => none

/-- A block right after reset, with counter `e`, about to be presented `d`, the Transport returning `rs`. -/
def presented (d rs : List Byte) (e : Nat) : State :=
  { State.reset with transport := ⟨rs, 0, none⟩, errcnt := e, inputs := [.present d] }

/-- One step from `s` gives a next state that meets `p`. -/
def stepMeets (s : State) (p : State → Bool) : Bool :=
  match step s with
  | .next t => p t
  | .fault _ | .refused _ => false

/-- The results the host reads. -/
def results (t : State) : List Byte := (List.range t.rlen.toNat).map t.resultByte

/-- From reset with counter `e`, descriptor `d` is performed: link trace `tr`, counter `e'` at the end, and the host reads `res`. -/
def performs (d : List Byte) (tr : List LinkEvent) (e e' : Nat) (res : List Byte) : Bool :=
  stepMeets (presented d (returnsOf tr) e) fun t =>
    decide (t.trace = tr) && decide (t.errcnt = e') && decide (results t = res) && !t.busy && decide (t.cstat = .ok)
      && !t.selline

/-- A descriptor is rejected, and nothing but CSTAT changes. -/
def rejects (d : List Byte) : Bool :=
  stepMeets (presented d [] 5) fun t => decide (t = { presented d [] 5 with inputs := [], cstat := .rejected })

/-! ## Well-formedness -/

/-- A payload of 256 bytes does not fit its count byte. -/
theorem test_wf_refuses_long_payload :
    (Instr.wrblk 0 (List.replicate 256 0)).wf = false ∧ (Instr.chtx 0 0 0 true (List.replicate 256 0)).wf = false ∧
    (Instr.chir 0 0 0 (List.replicate 256 0)).wf = false ∧ (Instr.chdr 0 0 0 (List.replicate 256 0)).wf = false := by
  simp only [Instr.wf, Instr.payload, List.length_replicate]; decide

/-- One of 255 bytes does (TA15). -/
theorem test_wf_takes_longest_payload : (Instr.wrblk 0 (List.replicate 255 0)).wf = true := by
  simp only [Instr.wf, Instr.payload, List.length_replicate]; decide

/-! ## Decoding: descriptors written out from R56, one for every constructor -/

/-- TR1, TR6, TR9, TA10: the four primitive operations. -/
theorem test_decode_primitive :
    decode [0x01, 0x12, 0x34] = .ok (.wrreg 0x12 0x34) ∧
    decode [0x02, 0x40, 0x02, 0xAA, 0xBB] = .ok (.wrblk 0x40 [0xAA, 0xBB]) ∧
    decode [0x03, 0x06] = .ok (.rdreg 0x06) ∧ decode [0x04, 0x5B, 0x02] = .ok (.rdblk 0x5B 2) := by decide

/-- TC1, TC3, TC6 to TC12: the eight channel operations. -/
theorem test_decode_channel :
    decode [0x10, 0x02] = .ok (.chdis 2) ∧
    decode [0x11, 0x02, 0x1A, 0x04, 0x03, 0x01, 0x11, 0x22, 0x33] = .ok (.chtx 2 0x1A 0x4 true [0x11, 0x22, 0x33]) ∧
    decode [0x12, 0x01, 0x8C, 0x04, 0x08] = .ok (.chrx 1 0x8C 0x4 8) ∧
    decode [0x13, 0x00, 0x5E, 0x04, 0x04] = .ok (.chrrn 0 0x5E 0x4 4) ∧
    decode [0x14, 0x03, 0x56, 0x04, 0x02] = .ok (.chrr 3 0x56 0x4 2) ∧
    decode [0x15, 0x01, 0x4D, 0x04, 0x02, 0x01, 0x02] = .ok (.chir 1 0x4D 0x4 [1, 2]) ∧
    decode [0x16, 0x03, 0x4E, 0x0C, 0x01, 0xAA] = .ok (.chdr 3 0x4E 0xC [0xAA]) ∧
    decode [0x17, 0x04, 0x82, 0x04, 0x06] = .ok (.chrrd 4 0x82 0x4 6) := by decide

/-- TR25, TR26, TR29: ingest and status. -/
theorem test_decode_ingest_status :
    decode [0x20, 0x03] = .ok (.rdmsg 3) ∧ decode [0x21] = .ok .lastch ∧ decode [0x30] = .ok .rderr := by decide

/-- TR2 to TR5, TR7, TR10, TR14: rejected primitive descriptors and reserved codes. -/
theorem test_reject_primitive :
    rejects [0x01, 0x12] ∧ rejects [0x01, 0x12, 0x34, 0x56] ∧ rejects [0x00] ∧ rejects [0x05, 0x12] ∧
    rejects [0x02, 0x40, 0x02, 0xAA] ∧ rejects [0x03] ∧ rejects [0x0F, 0x02] ∧ rejects [0x18, 0x02] := by decide

/-- TR16 to TR18, TR21, TR22, TR24, TR27, TR28, TR30: rejected channel and status descriptors. -/
theorem test_reject_channel :
    rejects [0x11, 0x02, 0x1A, 0x04, 0x03, 0x02, 0x11, 0x22, 0x33] ∧
    rejects [0x11, 0x02, 0x1A, 0x14, 0x03, 0x00, 0x11, 0x22, 0x33] ∧
    rejects [0x11, 0x02, 0x1A, 0x04, 0x03, 0x00, 0x11, 0x22] ∧ rejects [0x12, 0x01, 0x8C, 0x04] ∧
    rejects [0x12, 0x01, 0x8C, 0x04, 0x08, 0x00] ∧ rejects [0x15, 0x01, 0x4D, 0x04, 0x02, 0x00, 0x01, 0x02] ∧
    rejects [0x21, 0x00] ∧ rejects [0x22] ∧ rejects [0x2F] ∧ rejects [0x31] ∧ rejects [0xFF] ∧ rejects [] := by decide

/-- TR13, TR19: channel index and length are not checked. -/
theorem test_decode_checks_no_range :
    decode [0x10, 0x09] = .ok (.chdis 9) ∧
    decode ([0x11, 0x02, 0x1A, 0x04, 0x1F, 0x00] ++ List.replicate 31 0x07) =
      .ok (.chtx 2 0x1A 0x4 false (List.replicate 31 0x07)) := by decide

/-- A table word numbers the descriptor's bytes from its low end; operand bytes it does not give are 0. -/
theorem test_decode_table_word :
    decodeTableWord 24 0x341201 = some (.wrreg 0x12 0x34) ∧ decodeTableWord 8 0x03 = some (.rdreg 0) ∧
    decodeTableWord 48 0x000204024011 = some (.chtx 0x40 0x02 0x4 false [0, 0]) ∧
    decodeTableWord 48 0x000014024011 = none ∧ decodeTableWord 8 0x05 = none := by decide

/-! ## Operand forms -/

/-- TB1, TB2, TB3: addresses, in their domain and outside it. -/
theorem test_addresses :
    [0, 1, 7, 8, 14, 29, 30, 31, 255].map (chaddr referenceParams) =
      [0x10, 0x18, 0x48, 0x50, 0x80, 0xF8, 0x00, 0x08, 0x08] ∧
    [0, 1, 91, 124, 127, 128, 150, 211, 255].map mbaddr = [0x80, 0x81, 0xDB, 0xFC, 0xFF, 0x00, 0x16, 0x53, 0x7F] ∧
    chreg referenceParams 5 7 = 0x3F := by decide

/-- TP1, TP2, TP3, TP4: packed bytes. -/
theorem test_packed_bytes :
    packIDCMD 0x4 true true false false = 0x4C ∧ packIDCMD 0x4 true false false true = 0x49 ∧
    packIDCMD 0x4 true false true true = 0x4B ∧ packMPTR false 123 = 0x7B ∧ packMPTR true 150 = 0x96 ∧
    packMPTR true 210 = 0xD2 ∧ stripDrak 0xDA = 90 ∧ packLSTA 9 false false false = 0x48 ∧
    packLSTA 2 false false true = 0x11 ∧ packLSTA 7 false true false = 0x3A ∧ packLSTA 32 false false false = 0x00 ∧
    unpackML 0x4B = 9 ∧ unpackChtx 0x4B = true ∧ unpackChrx 0x4B = true ∧ statusLength 0xE5 = 5 ∧
    statusCommand 0xE5 = 7 := by decide

/-- V7: identifiers. -/
theorem test_identifiers :
    identHigh 0x1A4 = 0x1A ∧ identLow 0x1A4 = 0x4 ∧ identJoin 0x8C 0x4 = 0x8C4 ∧ identJoin 0x00 0xF = 0x00F := by decide

/-- TE4: the channel-index field at every position, the register holding 0xB5. -/
theorem test_last_channel_positions :
    [0, 1, 2, 3, 4, 5].map (fun k => lastChannel { referenceParams with lastchLsb := k } 0xB5) = [5, 2, 5, 6, 3, 5] := by
  decide

/-! ## The primitive operations -/

/-- TA3: the control acknowledgement wrong; the value is sent all the same. -/
theorem test_wrreg_control_mismatch :
    performs [0x01, 0x12, 0x34] [.sel, .x 0x12 0xAA, .x 0xE0 0xAA, .x 0x34 0x00, .desel] 0 1 [] := by decide

/-- TF3: the counter wraps. -/
theorem test_wrreg_counter_wraps :
    performs [0x01, 0x00, 0x00] [.sel, .x 0x00 0x00, .x 0xE0 0x55, .x 0x00 0x00, .desel] 0xFFFFFFFF 0 [] := by decide

/-- TA7: three bytes. -/
theorem test_wrblk_three : performs [0x02, 0xFC, 0x03, 0x11, 0x22, 0x33] (wFrame 0xFC [0x11, 0x22, 0x33]) 0 0 [] := by decide

/-- TA11: count 0. -/
theorem test_wrblk_none : performs [0x02, 0x40, 0x00] [.sel, .x 0x40 0xAA, .x 0xE0 0x55, .desel] 0 0 [] := by decide

/-- TA8: the data is delivered after a mismatch. -/
theorem test_rdreg_after_mismatch :
    performs [0x03, 0x06] [.sel, .x 0x06 0xAA, .x 0x60 0xFF, .x 0xFF 0x05, .desel] 0 1 [0x05] := by decide

/-- TA14: data bytes are never checked. -/
theorem test_rdblk_data_unchecked : performs [0x04, 0x90, 0x02] (rFrame 0x90 [0x55, 0xAA]) 0 0 [0x55, 0xAA] := by decide

/-- TA12: count 0 leaves RLEN 0. -/
theorem test_rdblk_none : performs [0x04, 0x40, 0x00] (rFrame 0x40 []) 0 0 [] := by decide

/-- TA16: the delay slots of a write of two bytes. -/
theorem test_delay_slots :
    stepMeets { presented [0x02, 0x40, 0x02, 0x01, 0x02] [0xAA, 0x55, 0, 0] 0 with
        cfg := { referenceParams with tSel := 1, tAddr := 2, tCmd := 3, tData := 4, tDesel := 5 } } (fun t =>
      decide (t.trace = [.sel, .dly 1, .x 0x40 0xAA, .dly 2, .x 0xE0 0x55, .dly 3, .x 0x01 0, .dly 4, .x 0x02 0, .dly 4,
        .desel, .dly 5] ∧ transferTrace t.trace = wFrame 0x40 [1, 2])) := by decide

/-! ## The channel operations -/

/-- TC2: mismatches in the second and the sixth write. -/
theorem test_chdis_mismatches :
    performs [0x10, 0x07]
      (wFrame 0x48 [0] ++ [.sel, .x 0x49 0x00, .x 0xE0 0x55, .x 0 0, .desel] ++ wFrame 0x4A [0] ++ wFrame 0x4B [0]
        ++ wFrame 0x4E [0] ++ [.sel, .x 0x4F 0xAA, .x 0xE0 0x00, .x 0 0, .desel]) 0 2 [] := by decide

/-- V1: the document's first scenario. -/
theorem test_chtx_scenario :
    performs [0x11, 0x02, 0x1A, 0x04, 0x03, 0x00, 0x11, 0x22, 0x33]
      (wFrame 0xFC [0x11, 0x22, 0x33] ++ cfgFrames 0x20 0x1A 0x48 0x7B 0x20) 0 0 [] := by decide

/-- TC4: an empty payload still has its staging frame. -/
theorem test_chtx_empty :
    performs [0x11, 0x00, 0x00, 0x00, 0x00, 0x00] (wFrame 0xFF [] ++ cfgFrames 0x10 0x00 0x08 0x7E 0x08) 0 0 [] := by decide

/-- TC14: the pointer field of channel 5 is truncated. -/
theorem test_chrx_truncates : performs [0x12, 0x05, 0x12, 0x03, 0x1D] (cfgFrames 0x38 0x12 0x39 0x96 0xF0) 0 0 [] := by decide

/-- TC16: length 31 writes length field 0. -/
theorem test_chrx_length_31 : performs [0x12, 0x00, 0x12, 0x03, 0x1F] (cfgFrames 0x10 0x12 0x39 0x80 0x00) 0 0 [] := by decide

/-- TC7. -/
theorem test_chrrn : performs [0x13, 0x00, 0x5E, 0x04, 0x04] (cfgFrames 0x10 0x5E 0x4B 0x80 0x28) 0 0 [] := by decide

/-- TC8. -/
theorem test_chrr : performs [0x14, 0x03, 0x56, 0x04, 0x02] (cfgFrames 0x28 0x56 0x4B 0xDA 0x18) 0 0 [] := by decide

/-- TC10. -/
theorem test_chir :
    performs [0x15, 0x01, 0x4D, 0x04, 0x02, 0x01, 0x02] (wFrame 0x9F [1, 2] ++ cfgFrames 0x18 0x4D 0x4A 0x1E 0x18) 0 0 [] := by
  decide

/-- TC15: the staging address of channel 6 wraps into the register area. -/
theorem test_chir_wraps :
    performs [0x15, 0x06, 0x12, 0x03, 0x01, 0xEE] (wFrame 0x35 [0xEE] ++ cfgFrames 0x40 0x12 0x3A 0x34 0x10) 0 0 [] := by decide

/-- TC11. -/
theorem test_chdr :
    performs [0x16, 0x03, 0x4E, 0x0C, 0x01, 0xAA] (wFrame 0xDB [0xAA] ++ cfgFrames 0x28 0x4E 0xCA 0xDA 0x11) 0 0 [] := by decide

/-- TC12. -/
theorem test_chrrd : performs [0x17, 0x04, 0x82, 0x04, 0x06] (cfgFrames 0x30 0x82 0x4A 0xF8 0x3A) 0 0 [] := by decide

/-! ## Ingest and status -/

/-- V2b: the status byte where the pointer says, the payload at the fixed place. -/
theorem test_rdmsg_scenario :
    performs [0x20, 0x03]
      (rFrame 0x28 [0x8C] ++ rFrame 0x29 [0x49] ++ rFrame 0x2A [0xA8] ++ rFrame 0xA8 [0x05] ++ rFrame 0xDB [1, 2, 3, 4, 5])
      0 0 [0x8C, 0x49, 1, 2, 3, 4, 5] := by decide

/-- TD5: a mismatch in the pointer read; everything after it still happens. -/
theorem test_rdmsg_mismatch :
    performs [0x20, 0x01]
      (rFrame 0x18 [0x8C] ++ rFrame 0x19 [0x49] ++ [.sel, .x 0x1A 0x00, .x 0x60 0x00, .x 0xFF 0x9E, .desel]
        ++ rFrame 0x9E [0x02] ++ rFrame 0x9F [0x10, 0x20]) 0 2 [0x8C, 0x49, 0x10, 0x20] := by decide

/-- TE2: the other bits are discarded. -/
theorem test_lastch : performs [0x21] (rFrame 0x06 [0xFD]) 0 0 [0x05] := by decide

/-- TF2: the counter, most significant byte first, with no link event. -/
theorem test_rderr : performs [0x30] [] 0x01020304 0x01020304 [1, 2, 3, 4] := by decide

/-- TF2: reading does not clear; the second RDERR of two. -/
theorem test_rderr_twice :
    stepMeets (presented [0x30] [] 0x01020304) (fun t =>
      stepMeets { t with inputs := [.present [0x30]] } fun u => decide (results u = [1, 2, 3, 4] ∧ u.errcnt = 0x01020304)) := by
  decide

/-! ## Inputs -/

/-- A block held in the middle of a read: the Transport completes two exchanges and no more. -/
def heldRead : State :=
  match exec (.rdreg 0x06) { State.reset with transport := ⟨[0xAA, 0x55, 0x05], 0, some 2⟩ } with
  | .next t => t
  | .fault _ | .refused _ => State.reset

/-- R79: it stands at the payload exchange, inside its scope. -/
theorem test_held :
    heldRead.busy = true ∧ heldRead.selline = true ∧ heldRead.ph = .data ∧
    heldRead.trace = [.sel, .x 0x06 0xAA, .x 0x60 0x55] := by decide

/-- R17: the Transport lifts the hold, and the operation ends as if it had never been held (TA9). -/
theorem test_hold_lifted :
    stepMeets { heldRead with inputs := [.transport none] } (fun t =>
      decide (t.trace = rFrame 0x06 [0x05] ∧ results t = [0x05]) && !t.busy) := by decide

/-- R172: reset inside a scope drops SELLINE and sends nothing. -/
theorem test_reset_in_scope :
    stepMeets { heldRead with inputs := [.reset], errcnt := 9 } (fun t =>
      decide (t.trace = [] ∧ t.errcnt = 0 ∧ t.ph = .idle) && !t.selline && !t.busy) := by decide

/-- Section 4 of 95: after a rejected descriptor an accepted one sets CSTAT back to OK. -/
theorem test_cstat_back_to_ok :
    stepMeets { presented [0x30] [] 0 with cstat := .rejected } (fun t => decide (t.cstat = .ok)) := by decide

/-- `withFetchWord` makes the very next step run the word's operation. -/
theorem test_fetch_word :
    step (State.reset.withFetchWord 8 0x30) = exec .rderr State.reset := by rfl

/-! ## Host side and assembler -/

/-- R61. -/
theorem test_chdisall : chdisall = [.chdis 0, .chdis 1, .chdis 2, .chdis 3, .chdis 4, .chdis 5, .chdis 6, .chdis 7] := by decide

/-- V1 and PG4 as text (R60). -/
theorem test_assembler :
    assembleLine referenceParams "CHTX 2, 0x1A4, 0, [0x11, 0x22, 0x33]".toList =
      some [.chtx 2 0x1A 0x4 false [0x11, 0x22, 0x33]] ∧
    assembleLine referenceParams "WRREG CHADDR(2)+3, 0x20".toList = some [.wrreg 0x23 0x20] ∧
    assembleLine referenceParams "RDBLK MBADDR(124), 3".toList = some [.rdblk 0xFC 3] ∧
    assembleLine referenceParams "RDREG A_LASTMSG".toList = some [.rdreg 0x06] ∧
    assembleLine referenceParams "CHRX 1, 0x18C4, 8".toList = none := by decide


/-! ## Witnesses: states and operands that meet the hypotheses of the obligations -/

/-- A ready block that is not the one after reset: latches used, the counter about to wrap, delays in every slot. -/
def readyState : State :=
  { State.reset with
    op := 0x20, a := 0x12, c := 0x60, n := 4, dbuf := [(0, 7), (254, 9)], ch := 7, id1 := 0xFF, id2 := 0xF, len := 29, rakl := true,
    ptr := 210, bIdcmd := 0xFF, bMptr := 0xD2, bLsta := 0xF0, rx := 3, errcnt := 0xFFFFFFFF, rbuf := [(0, 1)], rlen := 1,
    trace := wFrame 0x10 [0], epoch := 3, transport := ⟨[0x00, 0x55, 0x07, 0xAA, 0x55, 0x08], 12, none⟩,
    cfg := { referenceParams with tSel := 1, tAddr := 2, tCmd := 3, tData := 4, tDesel := 5 } }

/-- The hypothesis `Ready` of the result, count and noninterference statements, at reset and elsewhere. -/
theorem test_witness_ready : State.reset.Ready ∧ readyState.Ready := by decide

/-- `DecodeOfEncodeIsIdentity`, and `i.wf` of every other statement: a payload, a longest payload and no payload. -/
theorem test_witness_wf :
    (Instr.chtx 2 0x1A 0x4 true [1, 2, 3]).wf = true ∧ (Instr.chdr 7 0 0 (List.replicate 255 1)).wf = true ∧
    (Instr.rdblk 0 255).wf = true := by
  simp only [Instr.wf, Instr.payload, List.length_replicate]; decide

/-- The hypothesis on a payload's length in `WrblkResult`, `ChtxResult`, `StagedReplyResult`, `StagedBeforeConfigured`, with
`Ready`, at the longest. -/
theorem test_witness_payload : readyState.Ready ∧ (List.replicate 255 (0 : Byte)).length ≤ 255 :=
  ⟨by decide, Nat.le_of_eq List.length_replicate⟩

/-- `EncodeOfDecodeIsIdentity`. -/
theorem test_witness_decode : decode [0x02, 0x40, 0x01, 0xAA] = .ok (.wrblk 0x40 [0xAA]) := by decide

/-- `DescriptorPerformedOrRejected`, its first clause: the presented descriptor spells an operation, its reserved bits 0. -/
theorem test_witness_spells :
    (presented [0x11, 0x02, 0x1A, 0x0F, 0x00, 0x01] [] 0).busy = false ∧
    SpellsOperation [0x11, 0x02, 0x1A, 0x0F, 0x00, 0x01] :=
  ⟨rfl, 0x11, _, .chtx, rfl, rfl, rfl, by decide, by decide⟩

/-- Its second clause: `i2 = 0x10` is one past the accepted values. -/
theorem test_witness_spells_not :
    (presented [0x12, 0x02, 0x1A, 0x10, 0x00] [] 0).busy = false ∧ ¬ SpellsOperation [0x12, 0x02, 0x1A, 0x10, 0x00] := by
  refine ⟨rfl, ?_⟩
  rintro ⟨op, bs, o, hd, ho, -, h4, -⟩
  obtain ⟨rfl, rfl⟩ : op = 0x12 ∧ bs = [0x02, 0x1A, 0x10, 0x00] := by simpa [eq_comm] using hd
  cases o <;> simp [Opcode.code] at ho
  exact absurd (h4 (.inl rfl)) (by decide)

/-- `StepRunsTheDecodedOperation`. -/
theorem test_witness_step :
    (presented [0x20, 0x03] [] 0).busy = false ∧ (presented [0x20, 0x03] [] 0).inputs = .present [0x20, 0x03] :: [] ∧
    decode [0x20, 0x03] = .ok (.rdmsg 3) := by decide

/-- `OnlyAnIdleBlockTakesADescriptor`: a busy block to which a descriptor is presented, and an idle one with nothing to do. -/
theorem test_witness_busy :
    { heldRead with inputs := [.present [0x30]] }.busy = true ∧ State.reset.busy = false ∧ State.reset.inputs = [] := by decide

/-- `ChannelBlocksPlacedAndDisjoint`: the premises at their upper ends, and two channels that are neighbours. -/
theorem test_witness_channels :
    referenceParams.wf = true ∧ (7 : Byte).toNat < 8 ∧ chreg referenceParams 7 7 = 0x4F ∧
    chreg referenceParams 0 7 ≠ chreg referenceParams 1 0 := by decide

/-- `MailboxAddresses`: where its clauses meet. -/
theorem test_witness_mailbox : (mbaddr 127).toNat = 0xFF ∧ (mbaddr 128).toNat = 0 := by decide

/-- `LengthFieldRoundTrip`: both ends of the domain (V4), and one outside it (TC16). -/
theorem test_witness_length :
    modeLsta (modeRow .chrx) 0 = 0x08 ∧ modeLsta (modeRow .chrx) 29 = 0xF0 ∧ modeLsta (modeRow .chrx) 31 = 0x00 := by decide

/-- `PointerValueAndField` and `TransmitScratchIsShared`: the ends of their clauses (V5, TC5). -/
theorem test_witness_pointer :
    messagePointer (modeRow .chrx) 7 0 = 210 ∧ modeMptr (modeRow .chrx) 120 = 0xF8 ∧ modeMptr (modeRow .chrx) 150 = 0x96 ∧
    messagePointer (modeRow .chtx) 7 29 = 97 ∧ messagePointer (modeRow .chtx) 0 126 = 0 := by decide

/-- `TransmitScratchIsShared`, its third clause at both ends, lengths 3 and 29: offset 124 = 127 - 3 is the first byte of one payload
and the 27th of the other, offset 126 the last of both. -/
theorem test_witness_scratch :
    let start (len : Byte) : Nat := (mbaddr (messagePointer (modeRow .chtx) 0 len + 1)).toNat
    127 - min 3 29 ≤ 124 ∧ start 3 + 0 = 0x80 + 124 ∧ start 29 + 26 = 0x80 + 124 ∧
    126 ≤ 126 ∧ start 3 + 2 = 0x80 + 126 ∧ start 29 + 28 = 0x80 + 126 := by decide

/-- `MismatchOnlyCounts`: blocks held at the address exchange and at the control exchange. -/
theorem test_witness_check_phases :
    stepMeets { presented [0x03, 0x06] [] 0 with transport := ⟨[], 0, some 0⟩ } (fun t => decide (t.ph = .addr)) ∧
    stepMeets { presented [0x03, 0x06] [] 0 with transport := ⟨[0x00], 0, some 1⟩ } (fun t => decide (t.ph = .cmd)) := by
  decide

/-- `RderrResult`. -/
theorem test_witness_rderr : readyState.cfg.wf = true ∧ readyState.ErrcntInRange ∧ readyState.busy = false := by decide

/-- `TransactionCountsItsTwoChecks`: two, one and no check failing. -/
theorem test_witness_checks :
    readyState.Ready ∧ (Instr.rdreg 6).wf = true ∧ (Instr.rdreg 6).opcode ∈ [Opcode.wrreg, .wrblk, .rdreg, .rdblk] ∧
    frameMisses referenceParams (fun _ => 0) = 2 ∧ frameMisses referenceParams readyState.answer = 1 ∧
    frameMisses referenceParams (fun k => readyState.answer (k + 3)) = 0 := by decide

/-- `OperationRaisesCounterByAtMostTwiceItsFrames` and `SentBytesIgnoreReturnedBytes`. -/
theorem test_witness_sent :
    readyState.Ready ∧ (Instr.chdis 7).wf = true ∧ (Instr.chdis 7).opcode ≠ .rdmsg ∧ 5 < 2 ^ readyState.cfg.errcntW := by decide

/-- TC2's two mismatches, and a literal echo (TA5), as failed checks of a trace; from the middle of a handshake the control check
alone. -/
theorem test_failed_checks :
    failedChecks referenceParams .nothing
      (wFrame 0x48 [0] ++ [.sel, .x 0x49 0x00, .x 0xE0 0x55, .x 0 0, .desel] ++ wFrame 0x4A [0] ++ wFrame 0x4B [0]
        ++ wFrame 0x4E [0] ++ [.sel, .x 0x4F 0xAA, .x 0xE0 0x00, .x 0 0, .desel]) = 2 ∧
    failedChecks referenceParams .nothing [.sel, .x 0x12 0x12, .x 0xE0 0xE0, .x 0x34 0, .desel] = 2 ∧
    failedChecks referenceParams .control [.x 0xE0 0xE0, .x 0x34 0, .desel] = 1 := by decide

/-- `OnlyResetClearsTheCounter` of a block held between its two checks. -/
theorem test_witness_counter_held :
    stepMeets { presented [0x03, 0x06] [] 0 with transport := ⟨[0x00, 0x00], 0, some 1⟩ } (fun t =>
      decide (t.ErrcntInRange ∧ t.expected = .control ∧ t.errcnt = 1 ∧ t.inputs.head? ≠ some .reset)) := by decide

/-- `OnlyResetClearsTheCounter` and `TraceOnlyGrows`. -/
theorem test_witness_counter :
    (presented [0x10, 0x07] [] 0).ErrcntInRange ∧ (presented [0x10, 0x07] [] 0).inputs.head? ≠ some .reset ∧
    ∃ t, step (presented [0x10, 0x07] [] 0) = .next t := ⟨by decide, by decide, _, rfl⟩

/-- `NonChannelOperationsFrame`, `WritersLeaveResultsUnchanged` and `DbufFrame`: a next state, and operations of both kinds. -/
theorem test_witness_frames :
    (∃ t, exec (.wrblk 0x40 [1, 2]) readyState = .next t) ∧ (∃ t, exec .rderr heldRead = .next t) ∧
    readyState.dbuf.wf = true ∧ (Instr.wrblk 0x40 [1, 2]).wf = true ∧ (Instr.wrblk 0x40 [1, 2]).payload.length ≤ 2 :=
  ⟨⟨_, rfl⟩, ⟨_, rfl⟩, by decide, by decide, by decide⟩

/-- `ChannelOperationsFrame`. -/
theorem test_witness_channel_frame :
    (∃ t, exec (.chdis 3) readyState = .next t) ∧ (∃ t, exec (.rdmsg 3) readyState = .next t) ∧
    (Instr.chdis 3).opcode ∈ [Opcode.chdis, .chrx, .chrrn, .chrr, .chir, .chdr, .chrrd, .rdmsg] :=
  ⟨⟨_, rfl⟩, ⟨_, rfl⟩, by decide⟩

/-- `LatchesCarryNothingBetweenOperations`: two ready blocks that differ in their latches alone. -/
theorem test_witness_latches :
    readyState.Ready ∧ { readyState with op := 0, ch := 0, ptr := 1, dbuf := [], rx := 0, c := 0 }.Ready ∧
    { readyState with op := 0, ch := 0, ptr := 1, dbuf := [], rx := 0, c := 0 } ≠ readyState := by decide

/-- `ExchangeAndSlotCounts`: its premise on the delays; WRBLK with two bytes, RDBLK with 255 and CHTX with none meet its
clauses. -/
theorem test_witness_counts :
    readyState.Ready ∧ readyState.cfg.tSel ≠ 0 ∧ readyState.cfg.tAddr ≠ 0 ∧ readyState.cfg.tCmd ≠ 0 ∧
    readyState.cfg.tData ≠ 0 ∧ readyState.cfg.tDesel ≠ 0 ∧ (Instr.wrblk 0 [1, 2]).payload.length = 2 ∧
    (Instr.rdblk 0 255).wf = true ∧ (255 : Byte).toNat = 255 ∧ (Instr.chtx 0 0 0 false []).payload.length = 0 := by decide

/-- `HeldBlockWaitsForTheTransport`, with and without a move of its surroundings. -/
theorem test_witness_held :
    heldRead.held = true ∧ heldRead.inputs = [] ∧ { heldRead with inputs := [.present [0x30]] }.held = true := by decide

/-- A sound state that is held inside a scope: the hypothesis of `EveryStepKeepsTheInvariant` and of the last clause of
`HeldBlockWaitsForTheTransport`. -/
theorem test_witness_inv : heldRead.Inv :=
  ⟨by decide, by decide, by decide, by decide, by decide, by decide⟩

/-- `EveryStepKeepsTheInvariant`, `ParametersNeverChange`: a sound state has a next one. -/
theorem test_witness_inv_step : ∃ t, step { heldRead with inputs := [.transport (some 1)] } = .next t := ⟨_, rfl⟩

/-- `HoldThenGoOnIsNoHold`: an operation that is held, and the same one that is not. -/
theorem test_witness_hold :
    exec (.rdreg 0x06) { State.reset with transport := ⟨[0xAA, 0x55, 0x05], 0, some 2⟩ } = .next heldRead ∧
    ∃ u, exec (.rdreg 0x06) { State.reset with transport := ⟨[0xAA, 0x55, 0x05], 0, none⟩ } = .next u := ⟨rfl, _, rfl⟩

/-- What the target returns to a CHIR with two bytes of payload, every check correct. -/
def stagedAnswers : List Byte := [0xAA, 0x55, 0, 0, 0xAA, 0x55, 0, 0xAA, 0x55, 0, 0xAA, 0x55, 0, 0xAA, 0x55, 0]

/-- A CHIR held in its staging frame. -/
def heldStaging : State :=
  match exec (.chir 1 0x4D 0x4 [1, 2]) { State.reset with transport := ⟨stagedAnswers, 0, some 2⟩ } with
  | .next t => t
  | .fault _ | .refused _ => State.reset

/-- `StagedBeforeConfigured`, its first clause: an idle block, and the first step of the operation. -/
theorem test_witness_staged :
    State.reset.busy = false ∧ State.reset.dbuf.wf = true ∧
    exec (.chir 1 0x4D 0x4 [1, 2]) { State.reset with transport := ⟨stagedAnswers, 0, some 2⟩ } = .next heldStaging ∧
    heldStaging.held = true ∧ heldStaging.trace = [.sel, .x 0x9F 0xAA, .x 0xE0 0x55] :=
  ⟨rfl, by decide, rfl, by decide, by decide⟩

/-- Its second clause: that block, to be held again in its second register write. -/
theorem test_witness_staged_again :
    StagedLink [] [1, 2] (fun k => stagedAnswers.getD k 0) heldStaging ∧ heldStaging.busy = true ∧
    stepMeets { heldStaging with inputs := [.transport (some 6)] } (fun t =>
      t.held && decide (t.trace = wFrame 0x9F [1, 2] ++ wFrame 0x18 [0x4D] ++ [.sel, .x 0x19 0xAA])) := by
  refine ⟨⟨?_, ?_, ?_, ?_⟩, ?_, ?_⟩ <;> decide

/-- `ResetLeavesTheTableOfValues`: reset asserted inside a scope. -/
theorem test_witness_reset :
    { heldRead with inputs := [.reset, .present [0x30]] }.inputs = .reset :: [.present [0x30]] ∧ heldRead.selline = true := by
  decide

/-- `BringUpSequence` with one mode write. -/
theorem test_bring_up : (bringUp { referenceParams with bringup := [(0x00, 0x1E)] }).head? = some (.wrreg 0x00 0x1E) := by
  decide

end Sys2Proof.Tests
end

section
/-! PROOF. No latch of R11 carries anything from one operation into the next (10_state.md R23): two blocks whose latches differ go
through an operation in lockstep. Between transactions they agree in what the transactions to come are made of (`SamePlan`), within
one also in the latches the transaction itself has loaded (`SameTransaction`); each move of the sequencer keeps this. -/

namespace Sys2Proof

/-! ## Codes and payloads -/

theorem Opcode.ofCode_code (o : Opcode) : Opcode.ofCode o.code = some o := by
  cases o <;> rfl

/-- The bytes acceptance loads into DBUF: WRREG's one byte, or the payload (R72, R57(d)). -/
def Instr.staged : Instr → List Byte
  | .wrreg _ v => [v]
  | i => i.payload

theorem Instr.staged_length {i : Instr} (h : i.wf = true) : i.staged.length ≤ 255 := by
  have hp : i.payload.length ≤ 255 := of_decide_eq_true h
  cases i
  case wrreg => exact Nat.le_add_left 1 254
  all_goals exact hp

end Sys2Proof

namespace Sys2Proof.Machine

/-! ## What agrees -/

/-- All of the block but its latches, SELLINE, the phase and the payload index: what meets the link and the host, and which operation
and transaction is under way. -/
structure SameCourse (s t : State) : Prop where
  op : t.op = s.op
  mstep : t.mstep = s.mstep
  busy : t.busy = s.busy
  cstat : t.cstat = s.cstat
  errcnt : t.errcnt = s.errcnt
  rbuf : t.rbuf = s.rbuf
  rlen : t.rlen = s.rlen
  trace : t.trace = s.trace
  epoch : t.epoch = s.epoch
  transport : t.transport = s.transport
  cfg : t.cfg = s.cfg

/-- What RDMSG has loaded by transaction `MSTEP`: CH on acceptance, and each byte it keeps in the transaction that reads it (R131). -/
structure SameMessage (s t : State) : Prop where
  ch : t.ch = s.ch
  b0 : 0 < s.mstep → t.b0 = s.b0
  b1 : 1 < s.mstep → t.b1 = s.b1
  p : 2 < s.mstep → t.p = s.p
  sta : 3 < s.mstep → t.sta = s.sta
  ptr : 3 < s.mstep → t.ptr = s.ptr

/-- DBUF as far as a block write of a list of frames reaches: it is what acceptance has loaded (R57(d), R81). -/
structure SameStaged (fs : List Frame) (s t : State) : Prop where
  wf_left : s.dbuf.wf = true
  wf_right : t.dbuf.wf = true
  bytes : ∀ f ∈ fs, f.data = none → ∀ j < f.count.toNat, t.dbuf.read j = s.dbuf.read j

/-- What the transactions of operation `o` still to come are made of. RDMSG reads its addresses and its count on the way, every other
operation has its frames from acceptance on. -/
structure SamePlan (o : Opcode) (s t : State) : Prop where
  opcode : s.opcode = some o
  frames : o ≠ .rdmsg → t.frames o = s.frames o
  message : o = .rdmsg → SameMessage s t
  staged : opcodeReads o = false → SameStaged (s.frames o) s t

/-- The latches of a transaction under way (R70): RX from the address exchange on, DBUF as far as a write sends it. -/
structure SameTransaction (s t : State) : Prop where
  started : s.ph ≠ .idle
  ph : t.ph = s.ph
  a : t.a = s.a
  c : t.c = s.c
  n : t.n = s.n
  i : t.i = s.i
  r : t.r = s.r
  rx : s.ph ∉ [.select, .wSel, .addr] → t.rx = s.rx
  payload : s.reads = false → ∀ j < s.n.toNat, t.dbuf.read j = s.dbuf.read j
  index : s.ph = .data → s.i < s.n

/-- Two blocks before a transaction of operation `o`, or its end: what the last transaction has read agrees where there was one. -/
structure SameBetween (o : Opcode) (s t : State) : Prop extends SameCourse s t, SamePlan o s t where
  r : 0 < s.mstep → t.r = s.r
  rx : 0 < s.mstep → t.rx = s.rx

/-- Two blocks in the same operation `o`, or both at its end. -/
structure Lockstep (o : Opcode) (s t : State) : Prop extends SameCourse s t where
  plan : s.busy = true → SamePlan o s t
  transaction : s.busy = true → SameTransaction s t

/-! ## The frames to come -/

theorem State.reads_of_opcode {s : State} {o : Opcode} (h : s.opcode = some o) : s.reads = opcodeReads o := by
  simp [State.reads, h]

theorem State.currentFrame_of_opcode {s : State} {o : Opcode} (h : s.opcode = some o) :
    s.currentFrame = (s.frames o)[s.mstep]? := by
  simp [State.currentFrame, h]

/-- The latches the frames of an operation are made of. -/
theorem State.frames_congr {s t : State} (h : SameOperands s t) (ha : t.a = s.a) (hn : t.n = s.n) (hptr : t.ptr = s.ptr)
    (hp : t.p = s.p) (hsta : t.sta = s.sta) (o : Opcode) : t.frames o = s.frames o := by
  cases o <;> simp [State.frames, State.disableFrames, State.configureFrames, State.stagingFrame, State.registerFrames,
    State.messageFrames, h.ch, h.id1, h.len, h.bIdcmd, h.bMptr, h.bLsta, h.cfg, ha, hn, hptr, hp, hsta]

/-- Beginning a transaction leaves the operation's frames as they are: where A and N name the frame, they are loaded with what they
hold. -/
theorem State.begun_frames {s : State} {o : Opcode} {f : Frame} {m : Nat} (hf : (s.frames o)[m]? = some f) :
    (s.begun f).frames o = s.frames o := by
  have single {g : Frame} (hg : [g][m]? = some f) : f = g := by
    simpa using List.mem_of_getElem? hg
  cases o
  case wrreg => rw [single hf]; rfl
  case wrblk => rw [single hf]; rfl
  case rdreg => rw [single hf]; rfl
  case rdblk => rw [single hf]; rfl
  all_goals rfl

/-- Every operation but RDERR has a transaction, and RDMSG ends after its fifth. -/
theorem State.mstep_of_no_frame {s : State} {o : Opcode} (h : (s.frames o)[s.mstep]? = none) :
    (o = .rderr ∨ 0 < s.mstep) ∧ (o = .rdmsg → 4 < s.mstep) := by
  have hlen := List.getElem?_eq_none_iff.mp h
  cases o <;> simp [State.frames, State.disableFrames, State.configureFrames, State.registerFrames, State.messageFrames,
    modeRow] at hlen ⊢ <;> omega

theorem SamePlan.opcode_right {o : Opcode} {s t : State} (h : SamePlan o s t) (hc : SameCourse s t) : t.opcode = some o :=
  (State.opcode_congr hc.op).trans h.opcode

theorem SameMessage.frame {s t : State} (h : SameMessage s t) (hc : SameCourse s t) :
    t.messageFrames[t.mstep]? = s.messageFrames[s.mstep]? := by
  rw [hc.mstep]
  rcases hm : s.mstep with _ | _ | _ | _ | _ | m <;> simp [State.messageFrames, hc.cfg, h.ch]
  · rw [h.p (by omega)]
  · rw [h.ptr (by omega), h.sta (by omega)]

/-- The two blocks have the same transaction next, or none. -/
theorem SamePlan.currentFrame {o : Opcode} {s t : State} (h : SamePlan o s t) (hc : SameCourse s t) :
    t.currentFrame = s.currentFrame := by
  rw [State.currentFrame_of_opcode (h.opcode_right hc), State.currentFrame_of_opcode h.opcode]
  by_cases ho : o = .rdmsg
  · subst ho
    exact (h.message rfl).frame hc
  · rw [h.frames ho, hc.mstep]

theorem SameCourse.controlByte {s t : State} (h : SameCourse s t) : t.controlByte = s.controlByte := by
  simp [State.controlByte, State.reads_congr h.op, h.cfg]

/-! ## The start and the end of a transaction -/

theorem State.begun_dbuf_wf {s : State} (f : Frame) (h : s.dbuf.wf = true) : (s.begun f).dbuf.wf = true := by
  simp only [State.begun]
  split
  · exact Memory.write_wf (by decide) h
  · exact h

/-- Loading `DBUF[0]` with the same byte keeps equal elements equal. -/
theorem State.begun_dbuf_read {s t : State} (f : Frame) (hs : s.dbuf.wf = true) (ht : t.dbuf.wf = true) {j : Nat}
    (h : t.dbuf.read j = s.dbuf.read j) : (t.begun f).dbuf.read j = (s.begun f).dbuf.read j := by
  simp only [State.begun]
  split
  · by_cases hj : j = 0
    · subst hj
      rw [Memory.read_write_same (Memory.wf_pairwise hs), Memory.read_write_same (Memory.wf_pairwise ht)]
    · rw [Memory.read_write_other hj, Memory.read_write_other hj, h]
  · exact h

theorem SameStaged.begun {fs : List Frame} {s t : State} (h : SameStaged fs s t) (f : Frame) :
    SameStaged fs (s.begun f) (t.begun f) where
  wf_left := State.begun_dbuf_wf f h.wf_left
  wf_right := State.begun_dbuf_wf f h.wf_right
  bytes g hg hd j hj := State.begun_dbuf_read f h.wf_left h.wf_right (h.bytes g hg hd j hj)

/-- The payload of a write is the same in both blocks: the byte of a single write, or what DBUF was loaded with. -/
theorem SameStaged.payload {fs : List Frame} {s t : State} (h : SameStaged fs s t) {f : Frame} (hf : f ∈ fs)
    (hone : f.data ≠ none → f.count = 1) (j : Nat) (hj : j < f.count.toNat) :
    (t.begun f).dbuf.read j = (s.begun f).dbuf.read j := by
  by_cases hd : f.data = none
  · exact State.begun_dbuf_read f h.wf_left h.wf_right (h.bytes f hf hd j hj)
  · obtain ⟨v, hv⟩ := Option.ne_none_iff_exists'.mp hd
    obtain rfl : j = 0 := by
      rw [hone hd] at hj
      exact Nat.lt_one_iff.mp hj
    simp only [State.begun, hv]
    rw [Memory.read_write_same (Memory.wf_pairwise h.wf_left), Memory.read_write_same (Memory.wf_pairwise h.wf_right)]

/-- A frame that carries its own byte is a single write (R81). -/
theorem State.frames_single {s : State} {o : Opcode} {f : Frame} (hf : f ∈ s.frames o) (hd : f.data ≠ none) : f.count = 1 := by
  have key : ∀ g ∈ s.frames o, g.data = none ∨ g.count = 1 := by
    cases o <;> simp [State.frames, State.disableFrames, State.configureFrames, State.stagingFrame, State.registerFrames,
      State.messageFrames, modeRow, Frame.single, Frame.block]
  exact (key f hf).resolve_left hd

theorem SamePlan.begun {o : Opcode} {s t : State} (h : SamePlan o s t) (hc : SameCourse s t) {f : Frame}
    (hf : s.currentFrame = some f) : SamePlan o (s.begun f) (t.begun f) := by
  have hfs : (s.frames o)[s.mstep]? = some f := (State.currentFrame_of_opcode h.opcode).symm.trans hf
  have hft : (t.frames o)[t.mstep]? = some f :=
    (State.currentFrame_of_opcode (h.opcode_right hc)).symm.trans ((h.currentFrame hc).trans hf)
  refine ⟨h.opcode, fun ho => ?_, fun ho => ?_, fun hr => ?_⟩
  · rw [State.begun_frames hfs, State.begun_frames hft, h.frames ho]
  · obtain ⟨ch, b0, b1, p, sta, ptr⟩ := h.message ho
    exact ⟨ch, b0, b1, p, sta, ptr⟩
  · rw [State.begun_frames hfs]
    exact (h.staged hr).begun f

theorem SameTransaction.begun {o : Opcode} {s t : State} (h : SamePlan o s t) (hc : SameCourse s t) {f : Frame}
    (hf : s.currentFrame = some f) : SameTransaction (s.begun f) (t.begun f) where
  started := nofun
  ph := rfl
  a := rfl
  c := hc.controlByte
  n := rfl
  i := rfl
  r := rfl
  rx hx := absurd (show Phase.select ∈ [Phase.select, .wSel, .addr] by decide) hx
  payload hr := by
    have hmem : f ∈ s.frames o := List.mem_of_getElem? ((State.currentFrame_of_opcode h.opcode).symm.trans hf)
    have hw : opcodeReads o = false := (State.reads_of_opcode (s := s.begun f) h.opcode).symm.trans hr
    exact (h.staged hw).payload hmem (State.frames_single hmem)
  index := nofun

/-- The two blocks deliver the same: what the operation has read, or the counter (R16). -/
theorem SameBetween.finish {o : Opcode} {s t : State} (h : SameBetween o s t) (hf : s.currentFrame = none) :
    SameCourse s.finish t.finish := by
  have hop : t.opcode = some o := h.toSamePlan.opcode_right h.toSameCourse
  obtain ⟨hend, hmsg⟩ := State.mstep_of_no_frame ((State.currentFrame_of_opcode h.opcode).symm.trans hf)
  have hd : t.deliverResult.rbuf = s.deliverResult.rbuf ∧ t.deliverResult.rlen = s.deliverResult.rlen ∧
      t.deliverResult.epoch = s.deliverResult.epoch := by
    simp only [State.deliverResult, hop, h.opcode]
    cases o
    case rderr => simp [h.cfg, h.errcnt, h.epoch]
    case rdmsg =>
      have hm := h.message rfl
      have h4 := hmsg rfl
      simp [h.r (by omega), hm.b0 (by omega), hm.b1 (by omega), h.epoch]
    case rdreg => simp [h.r (by simpa using hend), h.epoch]
    case rdblk => simp [h.r (by simpa using hend), h.epoch]
    case lastch => simp [h.rx (by simpa using hend), h.cfg, h.epoch]
    all_goals exact ⟨h.rbuf, h.rlen, h.epoch⟩
  obtain ⟨hrbuf, hrlen, hepoch⟩ := hd
  have hs := s.deliverResult_sameOperands
  have ht := t.deliverResult_sameOperands
  obtain ⟨strace, serr, stp, -⟩ := s.deliverResult_rest
  obtain ⟨ttrace, terr, ttp, -⟩ := t.deliverResult_rest
  exact ⟨ht.op.trans (h.op.trans hs.op.symm), rfl, rfl, ht.cstat.trans (h.cstat.trans hs.cstat.symm),
    terr.trans (h.errcnt.trans serr.symm), hrbuf, hrlen, ttrace.trans (h.trace.trans strace.symm), hepoch,
    ttp.trans (h.transport.trans stp.symm), ht.cfg.trans (h.cfg.trans hs.cfg.symm)⟩

/-- Both blocks begin the same transaction, or both end the operation. -/
theorem SameBetween.beginTransaction {o : Opcode} {s t : State} (h : SameBetween o s t) :
    Lockstep o s.beginTransaction t.beginTransaction := by
  have hcf := h.toSamePlan.currentFrame h.toSameCourse
  rcases hf : s.currentFrame with _ | f
  · rw [State.beginTransaction_none hf, State.beginTransaction_none (hcf.trans hf)]
    exact ⟨h.finish hf, nofun, nofun⟩
  · rw [State.beginTransaction_some hf, State.beginTransaction_some (hcf.trans hf)]
    obtain ⟨op, mstep, busy, cstat, errcnt, rbuf, rlen, trace, epoch, transport, cfg⟩ := h.toSameCourse
    exact ⟨⟨op, mstep, busy, cstat, errcnt, rbuf, rlen, trace, epoch, transport, cfg⟩,
      fun _ => h.toSamePlan.begun h.toSameCourse hf, fun _ => .begun h.toSamePlan h.toSameCourse hf⟩

/-! ## One move within a transaction -/

/-- What a move within a transaction leaves alone besides the operands: the latches of R11 that no exchange writes. -/
structure SameLatches (s t : State) : Prop extends SameOperands s t where
  a : t.a = s.a
  c : t.c = s.c
  n : t.n = s.n
  dbuf : t.dbuf = s.dbuf
  mstep : t.mstep = s.mstep
  ptr : t.ptr = s.ptr
  b0 : t.b0 = s.b0
  b1 : t.b1 = s.b1
  p : t.p = s.p
  sta : t.sta = s.sta
  busy : t.busy = s.busy
  rbuf : t.rbuf = s.rbuf
  rlen : t.rlen = s.rlen
  epoch : t.epoch = s.epoch

/-- A move that neither begins nor ends a transaction. -/
theorem State.tick_sameLatches {s : State} (h0 : s.ph ≠ .idle) (h1 : s.ph ≠ .wDesel) : SameLatches s s.tick := by
  cases hp : s.ph
  case idle => exact absurd hp h0
  case wDesel => exact absurd hp h1
  all_goals
    refine ⟨s.tick_sameOperands, ?_, ?_, ?_, ?_, ?_, ?_, ?_, ?_, ?_, ?_, ?_, ?_, ?_, ?_⟩ <;>
      simp [State.tick, hp, State.payloadOrEnd]

theorem SamePlan.keep {o : Opcode} {s t s' t' : State} (h : SamePlan o s t) (hs : SameLatches s s') (ht : SameLatches t t') :
    SamePlan o s' t' := by
  have hfs := State.frames_congr hs.toSameOperands hs.a hs.n hs.ptr hs.p hs.sta o
  have hft := State.frames_congr ht.toSameOperands ht.a ht.n ht.ptr ht.p ht.sta o
  refine ⟨(State.opcode_congr hs.op).trans h.opcode, fun ho => ?_, fun ho => ?_, fun hr => ?_⟩
  · rw [hfs, hft, h.frames ho]
  · obtain ⟨ch, b0, b1, p, sta, ptr⟩ := h.message ho
    constructor <;> simpa only [hs.mstep, hs.ch, ht.ch, hs.b0, ht.b0, hs.b1, ht.b1, hs.p, ht.p, hs.sta, ht.sta, hs.ptr, ht.ptr]
  · obtain ⟨wf, wf', bytes⟩ := h.staged hr
    rw [hfs]
    constructor <;> simpa only [hs.dbuf, ht.dbuf]

/-- A payload exchange sends the same byte in both blocks: a filler, or the element of DBUF at the index (R51). -/
theorem SameTransaction.payloadByte {s t : State} (h : SameTransaction s t) (hc : SameCourse s t) (hp : s.ph = .data) :
    (if t.reads then filler else t.dbuf.read t.i.toNat) = if s.reads then filler else s.dbuf.read s.i.toNat := by
  rw [State.reads_congr hc.op, h.i]
  cases hr : s.reads
  · exact h.payload hr _ (h.index hp)
  · rfl

/-- A check of the byte an exchange returns counts the same in both blocks (R78). -/
theorem SameCourse.checked_errcnt {s t : State} (h : SameCourse s t) (x y k : Byte) (m : MismatchPhase) :
    ((t.xchg x).checkAck k m).errcnt = ((s.xchg y).checkAck k m).errcnt := by
  by_cases hk : s.transport.next = k <;> simp [State.checkAck, h.transport, hk, h.errcnt, h.cfg]

/-- A move within a transaction leaves the same on the link, and finds the same answer there. -/
theorem SameTransaction.tick_course {s t : State} (h : SameTransaction s t) (hc : SameCourse s t) (h1 : s.ph ≠ .wDesel) :
    SameCourse s.tick t.tick := by
  have hs := State.tick_sameLatches h.started h1
  have ht := State.tick_sameLatches (h.ph ▸ h.started) (h.ph ▸ h1)
  have hpay := h.payloadByte hc
  have errcnt : t.tick.errcnt = s.tick.errcnt := by
    have hph := h.ph
    cases hp : s.ph <;> rw [hp] at hph <;> simp only [State.tick, hp, hph]
    case idle => exact absurd hp h.started
    case wDesel => exact absurd hp h1
    case addr | cmd =>
      rw [hc.cfg]
      exact hc.checked_errcnt ..
    all_goals simpa using hc.errcnt
  have link : t.tick.trace = s.tick.trace ∧ t.tick.transport = s.tick.transport := by
    have hph := h.ph
    cases hp : s.ph <;> rw [hp] at hph <;> simp [State.tick, hp, hph, hc.trace, hc.transport, hc.cfg, h.a, h.c]
    case idle => exact absurd hp h.started
    case data => exact hpay hp
    case wDesel => exact absurd hp h1
  exact ⟨ht.op.trans (hc.op.trans hs.op.symm), ht.mstep.trans (hc.mstep.trans hs.mstep.symm),
    ht.busy.trans (hc.busy.trans hs.busy.symm), ht.cstat.trans (hc.cstat.trans hs.cstat.symm), errcnt,
    ht.rbuf.trans (hc.rbuf.trans hs.rbuf.symm), ht.rlen.trans (hc.rlen.trans hs.rlen.symm), link.1,
    ht.epoch.trans (hc.epoch.trans hs.epoch.symm), link.2, ht.cfg.trans (hc.cfg.trans hs.cfg.symm)⟩

/-- A move within a transaction keeps the transaction's own latches equal. -/
theorem SameTransaction.tick {s t : State} (h : SameTransaction s t) (hc : SameCourse s t) (h1 : s.ph ≠ .wDesel) :
    SameTransaction s.tick t.tick := by
  have hs := State.tick_sameLatches h.started h1
  have ht := State.tick_sameLatches (h.ph ▸ h.started) (h.ph ▸ h1)
  obtain ⟨started, ph, i, r, rx, index⟩ : s.tick.ph ≠ .idle ∧ t.tick.ph = s.tick.ph ∧ t.tick.i = s.tick.i ∧
      t.tick.r = s.tick.r ∧ (s.tick.ph ∉ [.select, .wSel, .addr] → t.tick.rx = s.tick.rx) ∧
      (s.tick.ph = .data → s.tick.i < s.tick.n) := by
    have hph := h.ph
    have hrx := h.rx
    cases hp : s.ph
    case idle => exact absurd hp h.started
    case wDesel => exact absurd hp h1
    all_goals
      rw [hp] at hph hrx
      refine ⟨?_, ?_, ?_, ?_, ?_, ?_⟩ <;>
        simp [State.tick, hp, hph, hrx, h.i, h.n, h.r, hc.transport, State.reads_congr hc.op, ite_eq_iff]
  exact ⟨started, ph, ht.a.trans (h.a.trans hs.a.symm), ht.c.trans (h.c.trans hs.c.symm), ht.n.trans (h.n.trans hs.n.symm), i, r,
    rx, fun hr => by simpa only [hs.dbuf, ht.dbuf, hs.n] using h.payload ((State.reads_congr hs.op).symm.trans hr), index⟩

/-! ## From one transaction to the next -/

/-- RDMSG keeps in both blocks the byte its transaction has read (R131). -/
theorem SameMessage.collect {s t : State} (h : SameMessage s t) (hs : s.opcode = some .rdmsg) (ht : t.opcode = some .rdmsg)
    (hm : t.mstep = s.mstep) (hrx : t.rx = s.rx) :
    SameMessage { s.collect with mstep := s.mstep + 1 } { t.collect with mstep := t.mstep + 1 } := by
  obtain ⟨ch, b0, b1, p, sta, ptr⟩ := h
  simp only [State.collect, hs, ht, hm]
  rcases hk : s.mstep with _ | _ | _ | _ | k
  all_goals
    rw [hk] at b0 b1 p sta ptr
    constructor <;> simp_all

/-- The course of an operation does not depend on what it collects. -/
theorem SameCourse.collect {s t : State} (h : SameCourse s t) :
    SameCourse { s.collect with mstep := s.mstep + 1 } { t.collect with mstep := t.mstep + 1 } := by
  have hs := s.collect_sameBlock
  have ht := t.collect_sameBlock
  obtain ⟨strace, serr, stp, -⟩ := s.collect_rest
  obtain ⟨ttrace, terr, ttp, -⟩ := t.collect_rest
  exact ⟨ht.op.trans (h.op.trans hs.op.symm), congrArg (· + 1) h.mstep, ht.busy.trans (h.busy.trans hs.busy.symm),
    ht.cstat.trans (h.cstat.trans hs.cstat.symm), terr.trans (h.errcnt.trans serr.symm), ht.rbuf.trans (h.rbuf.trans hs.rbuf.symm),
    ht.rlen.trans (h.rlen.trans hs.rlen.symm), ttrace.trans (h.trace.trans strace.symm), ht.epoch.trans (h.epoch.trans hs.epoch.symm),
    ttp.trans (h.transport.trans stp.symm), ht.cfg.trans (h.cfg.trans hs.cfg.symm)⟩

theorem SamePlan.collect {o : Opcode} {s t : State} (h : SamePlan o s t) (hc : SameCourse s t) (hrx : t.rx = s.rx) :
    SamePlan o { s.collect with mstep := s.mstep + 1 } { t.collect with mstep := t.mstep + 1 } := by
  have ht := h.opcode_right hc
  by_cases ho : o = .rdmsg
  · subst ho
    exact ⟨(State.opcode_congr s.collect_sameOperands.op).trans h.opcode, fun hne => absurd rfl hne,
      fun _ => (h.message rfl).collect h.opcode ht hc.mstep hrx, nofun⟩
  · rw [State.collect_of_not_rdmsg (by simpa [h.opcode] using ho), State.collect_of_not_rdmsg (by simpa [ht] using ho)]
    refine ⟨h.opcode, h.frames, fun h' => absurd h' ho, fun hr => ?_⟩
    obtain ⟨wf_left, wf_right, bytes⟩ := h.staged hr
    exact ⟨wf_left, wf_right, bytes⟩

/-- The last move of a transaction: what was read in it is collected, and the next one begins or the operation ends. -/
theorem Lockstep.nextTransaction {o : Opcode} {s t : State} (hc : SameCourse s t) (hp : SamePlan o s t) (hr : t.r = s.r)
    (hrx : t.rx = s.rx) : Lockstep o s.nextTransaction t.nextTransaction := by
  refine SameBetween.beginTransaction ⟨hc.collect, hp.collect hc hrx, fun _ => ?_, fun _ => ?_⟩
  · obtain ⟨-, -, -, -, -, -, -, -, -, -, sr⟩ := s.collect_rest
    obtain ⟨-, -, -, -, -, -, -, -, -, -, tr⟩ := t.collect_rest
    exact tr.trans (hr.trans sr.symm)
  · obtain ⟨-, -, -, -, -, -, -, -, -, srx, -⟩ := s.collect_rest
    obtain ⟨-, -, -, -, -, -, -, -, -, trx, -⟩ := t.collect_rest
    exact trx.trans (hrx.trans srx.symm)

/-- A delay slot changes what meets the link alone. -/
theorem State.delay_sameLatches (s : State) (n : Nat) : SameLatches s (s.delay n) := by
  refine ⟨s.delay_sameOperands n, ?_, ?_, ?_, ?_, ?_, ?_, ?_, ?_, ?_, ?_, ?_, ?_, ?_, ?_⟩ <;> simp

theorem SameCourse.delay {s t : State} (h : SameCourse s t) (n : Nat) : SameCourse (s.delay n) (t.delay n) := by
  constructor <;> simp [h.op, h.mstep, h.busy, h.cstat, h.errcnt, h.rbuf, h.rlen, h.trace, h.epoch, h.transport, h.cfg]

/-! ## A whole operation -/

/-- Every move of the sequencer keeps two blocks in lockstep. -/
theorem Lockstep.tick {o : Opcode} {s t : State} (h : Lockstep o s t) (hb : s.busy = true) : Lockstep o s.tick t.tick := by
  have hc := h.toSameCourse
  have hp := h.plan hb
  have hx := h.transaction hb
  by_cases h1 : s.ph = .wDesel
  · have h2 : t.ph = .wDesel := hx.ph.trans h1
    simp only [State.tick, h1, h2, hc.cfg]
    refine Lockstep.nextTransaction (hc.delay _) (hp.keep (s.delay_sameLatches _) (t.delay_sameLatches _)) ?_ ?_
    · simpa using hx.r
    · simpa using hx.rx (by simp [h1])
  · exact ⟨hx.tick_course hc h1, fun _ => hp.keep (State.tick_sameLatches hx.started h1)
      (State.tick_sameLatches (hx.ph ▸ hx.started) (hx.ph ▸ h1)), fun _ => hx.tick hc h1⟩

/-- They are held at the same points. -/
theorem Lockstep.running {o : Opcode} {s t : State} (h : Lockstep o s t) : t.running = s.running := by
  cases hb : s.busy
  · rw [State.not_running_of_idle hb, State.not_running_of_idle (h.busy.trans hb)]
  · simp [State.running, State.awaitsTransport, h.busy, h.cfg, h.transport, (h.transaction hb).ph]

theorem Lockstep.run {o : Opcode} {s t : State} (h : Lockstep o s t) (k : Nat) : Lockstep o (State.run k s) (State.run k t) := by
  induction k generalizing s t with
  | zero => exact h
  | succ k ih =>
    cases hr : s.running
    · rw [State.run_of_not_running hr, State.run_of_not_running (h.running.trans hr)]
      exact h
    · have hb : s.busy = true := (Bool.and_eq_true_iff.mp hr).1
      rw [State.run_succ hr, State.run_succ (h.running.trans hr)]
      exact ih (h.tick hb)

/-- The first move of an operation begins its first transaction; it cannot be held there. -/
theorem State.resume_of_idle {s : State} (hb : s.busy = true) (hp : s.ph = .idle) :
    s.resume = State.run (moveBound - 1) s.beginTransaction := by
  have hr : s.running = true := by simp [State.running, State.awaitsTransport, hb, hp]
  have ht : s.tick = s.beginTransaction := by simp [State.tick, hp]
  rw [State.resume, ← ht]
  exact State.run_succ hr (moveBound - 1)

/-! ## Acceptance -/

/-- The block when an operation has been accepted and its operands and payload are loaded (R11, R57). -/
def State.loaded (s : State) : Instr → State
  | .wrreg a v => { s.accept .wrreg with a := a, dbuf := s.dbuf.load [v] }
  | .wrblk a d => { s.accept .wrblk with a := a, n := countByte d, dbuf := s.dbuf.load d }
  | .rdreg a => { s.accept .rdreg with a := a }
  | .rdblk a n => { s.accept .rdblk with a := a, n := n }
  | .chdis ch => { s.accept .chdis with ch := ch }
  | .chtx ch i1 i2 rak d =>
    State.packChannel { s.acceptChannel .chtx ch i1 i2 (countByte d) with rakl := rak, dbuf := s.dbuf.load d } (modeRow .chtx)
  | .chrx ch i1 i2 len => (s.acceptChannel .chrx ch i1 i2 len).packChannel (modeRow .chrx)
  | .chrrn ch i1 i2 len => (s.acceptChannel .chrrn ch i1 i2 len).packChannel (modeRow .chrrn)
  | .chrr ch i1 i2 len => (s.acceptChannel .chrr ch i1 i2 len).packChannel (modeRow .chrr)
  | .chir ch i1 i2 d =>
    State.packChannel { s.acceptChannel .chir ch i1 i2 (countByte d) with dbuf := s.dbuf.load d } (modeRow .chir)
  | .chdr ch i1 i2 d =>
    State.packChannel { s.acceptChannel .chdr ch i1 i2 (countByte d) with dbuf := s.dbuf.load d } (modeRow .chdr)
  | .chrrd ch i1 i2 len => (s.acceptChannel .chrrd ch i1 i2 len).packChannel (modeRow .chrrd)
  | .rdmsg ch => { s.accept .rdmsg with ch := ch }
  | .lastch => s.accept .lastch
  | .rderr => s.accept .rderr

/-- An operation's meaning: its operands loaded, then the sequencer run. -/
theorem exec_eq_resume (i : Instr) (s : State) : exec i s = .next (s.loaded i).resume := by
  cases i <;> rfl

/-- What acceptance makes of the fields it does not load from operands. -/
theorem State.loaded_fields (s : State) (i : Instr) :
    (s.loaded i).op = i.opcode.code ∧ (s.loaded i).mstep = 0 ∧ (s.loaded i).ph = .idle ∧ (s.loaded i).busy = true ∧
    (s.loaded i).cstat = .ok ∧ (s.loaded i).errcnt = s.errcnt ∧ (s.loaded i).rbuf = s.rbuf ∧ (s.loaded i).rlen = s.rlen ∧
    (s.loaded i).trace = s.trace ∧ (s.loaded i).epoch = s.epoch ∧ (s.loaded i).transport = s.transport ∧
    (s.loaded i).cfg = s.cfg := by
  cases i <;> exact ⟨rfl, rfl, rfl, rfl, rfl, rfl, rfl, rfl, rfl, rfl, rfl, rfl⟩

/-- The frames of an operation come from its operands and the parameters. -/
theorem State.loaded_frames {s t : State} (hcfg : t.cfg = s.cfg) {i : Instr} (hi : i.opcode ≠ .rdmsg) :
    (t.loaded i).frames i.opcode = (s.loaded i).frames i.opcode := by
  cases i
  case rdmsg => exact absurd rfl hi
  all_goals
    simp [State.loaded, State.frames, State.disableFrames, State.configureFrames, State.stagingFrame, State.registerFrames,
      State.acceptChannel, State.packChannel, Instr.opcode, modeIdcmd, modeRow, hcfg]

theorem State.loaded_dbuf (s : State) (i : Instr) : (s.loaded i).dbuf = s.dbuf.load i.staged := by
  cases i <;> rfl

/-- A block write of an operation sends what acceptance has loaded, no more and no less. -/
theorem State.loaded_blockCount (s : State) {i : Instr} (hw : opcodeReads i.opcode = false) :
    ∀ f ∈ (s.loaded i).frames i.opcode, f.data = none → f.count = countByte i.staged := by
  cases i
  case rdreg | rdblk | rdmsg | lastch => contradiction
  all_goals
    simp [State.loaded, State.frames, State.disableFrames, State.configureFrames, State.stagingFrame, State.registerFrames,
      State.acceptChannel, State.packChannel, Instr.opcode, modeRow, Frame.single, Frame.block, Instr.staged, Instr.payload,
      countByte]

theorem State.loaded_staged {s t : State} (hs : s.dbuf.wf = true) (ht : t.dbuf.wf = true) {i : Instr} (hi : i.wf = true)
    (hw : opcodeReads i.opcode = false) :
    SameStaged ((s.loaded i).frames i.opcode) (s.loaded i) (t.loaded i) where
  wf_left := s.loaded_dbuf i ▸ Memory.load_wf hs
  wf_right := t.loaded_dbuf i ▸ Memory.load_wf ht
  bytes f hf hd j hj := by
    have hl := Instr.staged_length hi
    rw [s.loaded_blockCount hw f hf hd, Laws.countByte_toNat hl] at hj
    rw [s.loaded_dbuf, t.loaded_dbuf, Memory.read_load hs hl, Memory.read_load ht hl, List.getElem?_eq_getElem hj]
    rfl

/-- Two accepted blocks are about to do the same, whatever their latches held before. -/
theorem State.loaded_between {s t : State} {i : Instr} (hi : i.wf = true) (hs : s.dbuf.wf = true) (ht : t.dbuf.wf = true)
    (herrcnt : t.errcnt = s.errcnt) (hrbuf : t.rbuf = s.rbuf) (hrlen : t.rlen = s.rlen) (hepoch : t.epoch = s.epoch)
    (htrace : t.trace = s.trace) (htransport : t.transport = s.transport) (hcfg : t.cfg = s.cfg) :
    SameBetween i.opcode (s.loaded i) (t.loaded i) := by
  obtain ⟨sop, sm, -, sbusy, scstat, serr, srbuf, srlen, strace, sepoch, stp, scfg⟩ := s.loaded_fields i
  obtain ⟨top, tm, -, tbusy, tcstat, terr, trbuf, trlen, ttrace, tepoch, ttp, tcfg⟩ := t.loaded_fields i
  have hc : SameCourse (s.loaded i) (t.loaded i) := by
    constructor <;> simp only [*]
  have first {k : Nat} : ¬ k < (s.loaded i).mstep := by simp [sm]
  have hop : (s.loaded i).opcode = some i.opcode := (congrArg Opcode.ofCode sop).trans i.opcode.ofCode_code
  refine ⟨hc, ⟨hop, fun ho => State.loaded_frames hcfg ho, fun ho => ?_, State.loaded_staged hs ht hi⟩,
    fun h => absurd h first, fun h => absurd h first⟩
  have hch : (t.loaded i).ch = (s.loaded i).ch := by
    cases i
    case rdmsg => rfl
    all_goals contradiction
  exact ⟨hch, (absurd · first), (absurd · first), (absurd · first), (absurd · first), (absurd · first)⟩

/-- Settles O36: from acceptance on the two blocks go in lockstep, so they end alike in all but their latches. -/
theorem latchesCarryNothingBetweenOperations : Obligations.LatchesCarryNothingBetweenOperations := by
  intro s t i hs ht hi herrcnt hrbuf hrlen hepoch htrace htransport hcfg
  obtain ⟨-, -, -, ⟨hsbuf, -⟩, -⟩ := hs
  obtain ⟨-, -, -, ⟨htbuf, -⟩, -⟩ := ht
  refine ⟨_, _, exec_eq_resume i s, exec_eq_resume i t, ?_⟩
  have hstart := State.loaded_between hi hsbuf htbuf herrcnt hrbuf hrlen hepoch htrace htransport hcfg
  obtain ⟨-, -, sph, sbusy, -⟩ := s.loaded_fields i
  obtain ⟨-, -, tph, tbusy, -⟩ := t.loaded_fields i
  rw [State.resume_of_idle sbusy sph, State.resume_of_idle tbusy tph]
  have hend := (hstart.beginTransaction.run (moveBound - 1)).toSameCourse
  exact ⟨hend.trace, hend.errcnt, hend.rbuf, hend.rlen, hend.epoch, hend.transport, hend.busy, hend.cstat⟩

end Sys2Proof.Machine
end

section
/-! PROOF. The channel encoder (42_channel_encoder.md): CHRRN and CHRR are the same on the link (R120), and the Transmit scratch area
is shared by all channels (R119). -/

namespace Sys2Proof.Machine

/-! ## One transmit scratch area (R119) -/

/-- The staged payload of CHTX begins `L` bytes below `0xFF`, mailbox offset 127: no channel enters, and it ends at offset 126. -/
theorem transmitStaging_toNat (ch len : Byte) :
    (mbaddr (messagePointer (modeRow .chtx) ch len + 1)).toNat = 255 - len.toNat := by
  have hptr : messagePointer (modeRow .chtx) ch len = 127 - (len + 1) := rfl
  have hmb (off : Byte) : mbaddr off = 0x80 + off := rfl
  rw [hptr, hmb]
  bv_omega

/-- Every mailbox offset of the last `L` below 127 holds a byte of the staged payload. -/
theorem transmitStaging_covers (ch len : Byte) {off : Nat} (hlo : 127 - len.toNat ≤ off) (hhi : off ≤ 126)
    (hlen : len.toNat ≤ 126) :
    ∃ j < len.toNat, (mbaddr (messagePointer (modeRow .chtx) ch len + 1)).toNat + j = 0x80 + off := by
  refine ⟨off + len.toNat - 127, by omega, ?_⟩
  rw [transmitStaging_toNat]
  omega

/-- Settles O14: where a payload is staged depends on its length alone, and each one ends at mailbox offset 126. -/
theorem transmitScratchIsShared : Obligations.TransmitScratchIsShared := by
  refine ⟨fun _ _ _ => rfl, fun ch len hlen => ?_, fun ch₁ ch₂ len₁ len₂ off h₁ h₂ hlo hhi => ?_⟩
  · rw [transmitStaging_toNat]
    omega
  · obtain ⟨j₁, hj₁, heq₁⟩ := transmitStaging_covers ch₁ len₁ (by omega) hhi h₁
    obtain ⟨j₂, hj₂, heq₂⟩ := transmitStaging_covers ch₂ len₂ (by omega) hhi h₂
    exact ⟨j₁, j₂, hj₁, hj₂, heq₁, heq₂⟩

/-! ## CHRRN and CHRR (R120): only OP tells them apart, and every move reads the same from both codes -/

/-- The same block with CHRR in OP. -/
def State.asChrr (s : State) : State := { s with op := Opcode.chrr.code }

theorem State.asChrr_opcode (s : State) : s.asChrr.opcode = some .chrr := Opcode.ofCode_code .chrr

theorem State.asChrr_running (s : State) : s.asChrr.running = s.running := rfl

theorem State.asChrr_delay (s : State) (n : Nat) : s.asChrr.delay n = (s.delay n).asChrr := by
  unfold State.delay
  split <;> rfl

/-- A check does not read OP (R53). -/
theorem State.asChrr_checkAck (s : State) (k : Byte) (m : MismatchPhase) :
    s.asChrr.checkAck k m = (s.checkAck k m).asChrr := by
  have hrx : s.asChrr.rx = s.rx := rfl
  unfold State.checkAck
  rw [hrx]
  split <;> rfl

section
variable {s : State} (h : s.opcode = some .chrrn)
include h

theorem State.asChrr_reads : s.asChrr.reads = s.reads := by
  rw [State.reads_of_opcode h, State.reads_of_opcode s.asChrr_opcode]
  rfl

/-- The two modes have the same row in the table of R101, so that the frames are the same. -/
theorem State.asChrr_currentFrame : s.asChrr.currentFrame = s.currentFrame := by
  rw [State.currentFrame_of_opcode h, State.currentFrame_of_opcode s.asChrr_opcode]
  rfl

/-- Neither operation delivers a result (R16). -/
theorem State.asChrr_finish : s.asChrr.finish = s.finish.asChrr := by
  simp only [State.finish, State.deliverResult, h, s.asChrr_opcode]
  rfl

theorem State.asChrr_begun (f : Frame) : s.asChrr.begun f = (s.begun f).asChrr := by
  simp only [State.begun, State.controlByte, State.asChrr_reads h]
  rfl

theorem State.asChrr_beginTransaction : s.asChrr.beginTransaction = s.beginTransaction.asChrr := by
  have hcf := State.asChrr_currentFrame h
  cases hf : s.currentFrame with
  | none => rw [State.beginTransaction_none hf, State.beginTransaction_none (hcf.trans hf), State.asChrr_finish h]
  | some f => rw [State.beginTransaction_some hf, State.beginTransaction_some (hcf.trans hf), State.asChrr_begun h]

theorem State.asChrr_nextTransaction : s.asChrr.nextTransaction = s.nextTransaction.asChrr := by
  have hs : s.collect = s := State.collect_of_not_rdmsg (by simp [h])
  have ht : s.asChrr.collect = s.asChrr := State.collect_of_not_rdmsg (by simp [s.asChrr_opcode])
  rw [State.nextTransaction, State.nextTransaction, hs, ht]
  exact State.asChrr_beginTransaction (s := { s with mstep := s.mstep + 1 }) h

theorem State.asChrr_exchangePayload : s.asChrr.exchangePayload = s.exchangePayload.asChrr := by
  simp only [State.exchangePayload, State.asChrr_reads h]
  split <;> rfl

/-- Every move of the sequencer does the same to the block with CHRR in OP. -/
theorem State.asChrr_tick : s.asChrr.tick = s.tick.asChrr := by
  have hph : s.asChrr.ph = s.ph := rfl
  have hcfg : s.asChrr.cfg = s.cfg := rfl
  have hop (n : Nat) : (s.delay n).opcode = some .chrrn := (State.opcode_congr (s.delay_op n)).trans h
  cases hp : s.ph <;> simp only [State.tick, hph, hp, hcfg, State.asChrr_delay]
  case idle => exact State.asChrr_beginTransaction h
  case addr => exact congrArg (fun t => { t with ph := .wAddr }) ((s.xchg s.a).asChrr_checkAck s.cfg.addrAck .address)
  case cmd => exact congrArg (fun t => { t with ph := .wCmd }) ((s.xchg s.c).asChrr_checkAck s.cfg.cmdAck .control)
  case data => exact congrArg (fun t => { t with ph := .wData }) (State.asChrr_exchangePayload h)
  case wDesel => exact State.asChrr_nextTransaction (hop _)
  all_goals rfl

theorem State.asChrr_run (k : Nat) : State.run k s.asChrr = (State.run k s).asChrr := by
  induction k generalizing s with
  | zero => rfl
  | succ k ih =>
    cases hr : s.running
    · rw [State.run_of_not_running hr, State.run_of_not_running (s.asChrr_running.trans hr)]
    · rw [State.run_succ hr, State.run_succ (s.asChrr_running.trans hr), State.asChrr_tick h]
      exact ih ((State.opcode_congr s.tick_sameOperands.op).trans h)

end

/-- Settles O35: accepted, the two blocks differ in OP alone, and running the operation keeps it so. -/
theorem chrrnAndChrrAgree : Obligations.ChrrnAndChrrAgree := by
  intro s ch i1 i2 len
  have hload : s.loaded (.chrr ch i1 i2 len) = (s.loaded (.chrrn ch i1 i2 len)).asChrr := rfl
  have hopcode : (s.loaded (.chrrn ch i1 i2 len)).opcode = some .chrrn := Opcode.ofCode_code .chrrn
  have hop : (s.loaded (.chrrn ch i1 i2 len)).resume.op = 0x13 := (s.loaded (.chrrn ch i1 i2 len)).resume_sameOperands.op
  refine ⟨(s.loaded (.chrrn ch i1 i2 len)).resume, ?_, ?_⟩
  · rw [exec_eq_resume, ← hop]
  · rw [exec_eq_resume, hload]
    exact congrArg Host.Outcome.next (State.asChrr_run hopcode moveBound)

end Sys2Proof.Machine
end

section
/-! PROOF. Host descriptors (30_encoding.md R55 to R59): each operand reader accepts exactly the bytes the encoder writes, so that a
descriptor decodes to an operation exactly when it is the encoding of that operation and the operation is well-formed. -/

namespace Sys2Proof

/-! ## One operand byte -/

theorem Opcode.ofCode_eq_some {b : Byte} {o : Opcode} : Opcode.ofCode b = some o ↔ b = o.code := by
  constructor
  · intro h
    unfold Opcode.ofCode at h
    split at h <;> cases h <;> exact BitVec.eq_of_toNat_eq ‹_›
  · rintro rfl
    exact o.ofCode_code

theorem readI2_i2Byte (n : Nibble) : readI2 (i2Byte n) = .ok n := by
  revert n
  decide

/-- The high half 0 is all that is asked of operand byte `i2` (R58). -/
theorem i2Byte_of_lt {b : Byte} (h : b.toNat < 16) : i2Byte (b.setWidth 4) = b := by
  apply BitVec.eq_of_toNat_eq
  simp only [i2Byte, BitVec.toNat_setWidth]
  omega

theorem readI2_ok {b : Byte} {n : Nibble} (h : readI2 b = .ok n) : b = i2Byte n := by
  unfold readI2 at h
  split at h
  next h0 =>
    cases h
    have hlt : b.toNat < 16 := by
      have := congrArg BitVec.toNat h0
      simp [BitVec.extractLsb'_toNat, Nat.shiftRight_eq_div_pow] at this
      omega
    have hlow : b.extractLsb' 0 4 = b.setWidth 4 := BitVec.eq_of_toNat_eq (by simp)
    rw [hlow, i2Byte_of_lt hlt]
  next => cases h

theorem readRak_rakByte (r : Bool) : readRak (rakByte r) = .ok r := by
  revert r
  decide

theorem rakByte_of_lt {b : Byte} (h : b.toNat < 2) : rakByte (b.getLsbD 0) = b := by
  obtain h0 | h1 : b = 0 ∨ b = 1 := by bv_omega
  · subst h0; rfl
  · subst h1; rfl

theorem readRak_ok {b : Byte} {r : Bool} (h : readRak b = .ok r) : b = rakByte r := by
  unfold readRak at h
  split at h
  next h0 =>
    cases h
    have hlt : b.toNat < 2 := by
      have := congrArg BitVec.toNat h0
      simp [BitVec.extractLsb'_toNat, Nat.shiftRight_eq_div_pow] at this
      omega
    rw [rakByte_of_lt hlt]
  next => cases h

theorem readPayload_countByte {d : List Byte} (h : d.length ≤ 255) : readPayload (countByte d) d = .ok d := by
  rw [readPayload, if_pos (Laws.countByte_toNat h).symm]

/-- A count byte that fits its payload is the payload's own (R55). -/
theorem eq_countByte {n : Byte} {d : List Byte} (h : d.length = n.toNat) : d.length ≤ 255 ∧ n = countByte d := by
  have hn := n.isLt
  have hd : d.length ≤ 255 := by omega
  exact ⟨hd, BitVec.eq_of_toNat_eq (h.symm.trans (Laws.countByte_toNat hd).symm)⟩

theorem readPayload_ok {n : Byte} {d d' : List Byte} (h : readPayload n d = .ok d') :
    d = d' ∧ d'.length ≤ 255 ∧ n = countByte d' := by
  unfold readPayload at h
  split at h
  next hl =>
    cases h
    exact ⟨rfl, eq_countByte hl⟩
  next => cases h

/-! ## The operands of one format: what a reader accepts is what the encoder writes -/

theorem exceptMap_eq_ok {ε α β : Type} {x : Except ε α} {f : α → β} {b : β} (h : x.map f = .ok b) :
    ∃ a, x = .ok a ∧ f a = b := by
  cases x with
  | error e => cases h
  | ok a => exact ⟨a, rfl, Except.ok.inj h⟩

theorem readOne_ok {bs : List Byte} {x : Byte} (h : readOne bs = .ok x) : bs = [x] := by
  unfold readOne at h
  split at h <;> cases h
  rfl

theorem readTwo_ok {bs : List Byte} {x : Byte × Byte} (h : readTwo bs = .ok x) : bs = [x.1, x.2] := by
  unfold readTwo at h
  split at h <;> cases h
  rfl

theorem readNone_ok {bs : List Byte} {x : Unit} (h : readNone bs = .ok x) : bs = [] := by
  unfold readNone at h
  split at h <;> cases h
  rfl

theorem readPB_ok {bs : List Byte} {a : Byte} {d : List Byte} (h : readPB bs = .ok (a, d)) :
    bs = a :: countByte d :: d ∧ d.length ≤ 255 := by
  unfold readPB at h
  split at h
  next =>
    obtain ⟨d, hd, heq⟩ := exceptMap_eq_ok h
    cases heq
    obtain ⟨rfl, hl, rfl⟩ := readPayload_ok hd
    exact ⟨rfl, hl⟩
  next => cases h

theorem readM1_ok {bs : List Byte} {ch i1 : Byte} {i2 : Nibble} {len : Byte} (h : readM1 bs = .ok (ch, i1, i2, len)) :
    bs = [ch, i1, i2Byte i2, len] := by
  unfold readM1 at h
  split at h
  next =>
    obtain ⟨i2, hi, heq⟩ := exceptMap_eq_ok h
    cases heq
    rw [readI2_ok hi]
  next => cases h

theorem readM2_ok {bs : List Byte} {ch i1 : Byte} {i2 : Nibble} {d : List Byte} (h : readM2 bs = .ok (ch, i1, i2, d)) :
    bs = ch :: i1 :: i2Byte i2 :: countByte d :: d ∧ d.length ≤ 255 := by
  unfold readM2 at h
  split at h
  next =>
    split at h <;> cases h
    next hi hd =>
    obtain ⟨rfl, hl, rfl⟩ := readPayload_ok hd
    exact ⟨by rw [readI2_ok hi], hl⟩
  next => cases h

theorem readM3_ok {bs : List Byte} {ch i1 : Byte} {i2 : Nibble} {rak : Bool} {d : List Byte}
    (h : readM3 bs = .ok (ch, i1, i2, rak, d)) :
    bs = ch :: i1 :: i2Byte i2 :: countByte d :: rakByte rak :: d ∧ d.length ≤ 255 := by
  unfold readM3 at h
  split at h
  next =>
    split at h <;> cases h
    next hi hr hd =>
    obtain ⟨rfl, hl, rfl⟩ := readPayload_ok hd
    exact ⟨by rw [readI2_ok hi, readRak_ok hr], hl⟩
  next => cases h

/-! ## Whole descriptors -/

theorem readPB_written {a : Byte} {d : List Byte} (h : d.length ≤ 255) : readPB (a :: countByte d :: d) = .ok (a, d) := by
  simp [readPB, readPayload_countByte h, Except.map]

theorem readM1_written {ch i1 : Byte} {i2 : Nibble} {len : Byte} :
    readM1 [ch, i1, i2Byte i2, len] = .ok (ch, i1, i2, len) := by
  simp [readM1, readI2_i2Byte, Except.map]

theorem readM2_written {ch i1 : Byte} {i2 : Nibble} {d : List Byte} (h : d.length ≤ 255) :
    readM2 (ch :: i1 :: i2Byte i2 :: countByte d :: d) = .ok (ch, i1, i2, d) := by
  simp [readM2, readPayload_countByte h, readI2_i2Byte]

theorem readM3_written {ch i1 : Byte} {i2 : Nibble} {rak : Bool} {d : List Byte} (h : d.length ≤ 255) :
    readM3 (ch :: i1 :: i2Byte i2 :: countByte d :: rakByte rak :: d) = .ok (ch, i1, i2, rak, d) := by
  simp [readM3, readPayload_countByte h, readI2_i2Byte, readRak_rakByte]

theorem decodeOperands_operandBytes {i : Instr} (h : i.wf = true) : decodeOperands i.opcode i.operandBytes = .ok i := by
  have hl : i.payload.length ≤ 255 := of_decide_eq_true h
  cases i
  case wrblk => exact congrArg (Except.map _) (readPB_written hl)
  case chrx | chrrn | chrr | chrrd => exact congrArg (Except.map _) readM1_written
  case chir | chdr => exact congrArg (Except.map _) (readM2_written hl)
  case chtx => exact congrArg (Except.map _) (readM3_written hl)
  all_goals rfl

theorem decodeOperands_ok {o : Opcode} {bs : List Byte} {i : Instr} (h : decodeOperands o bs = .ok i) :
    i.opcode = o ∧ i.operandBytes = bs ∧ i.wf = true := by
  cases o <;> obtain ⟨x, hx, rfl⟩ := exceptMap_eq_ok h
  case wrreg | rdblk => exact ⟨rfl, (readTwo_ok hx).symm, rfl⟩
  case rdreg | chdis | rdmsg => exact ⟨rfl, (readOne_ok hx).symm, rfl⟩
  case wrblk =>
    obtain ⟨hbs, hl⟩ := readPB_ok hx
    exact ⟨rfl, hbs.symm, decide_eq_true hl⟩
  case chrx | chrrn | chrr | chrrd => exact ⟨rfl, (readM1_ok hx).symm, rfl⟩
  case chir | chdr =>
    obtain ⟨hbs, hl⟩ := readM2_ok hx
    exact ⟨rfl, hbs.symm, decide_eq_true hl⟩
  case chtx =>
    obtain ⟨hbs, hl⟩ := readM3_ok hx
    exact ⟨rfl, hbs.symm, decide_eq_true hl⟩
  case lastch | rderr => exact ⟨rfl, (readNone_ok hx).symm, rfl⟩

/-- Settles O1: the code byte names the operation, and the operands are read back as they were written. -/
theorem decodeOfEncodeIsIdentity : Obligations.DecodeOfEncodeIsIdentity := by
  intro i hi
  rw [encode, decode, i.opcode.ofCode_code]
  exact decodeOperands_operandBytes hi

/-- Settles O2: each reader accepts only what the encoder writes. -/
theorem encodeOfDecodeIsIdentity : Obligations.EncodeOfDecodeIsIdentity := by
  intro d i h
  cases d with
  | nil => cases h
  | cons op bs =>
    rw [decode] at h
    split at h
    next o ho =>
      obtain ⟨rfl, rfl, hwf⟩ := decodeOperands_ok h
      exact ⟨by rw [encode, Opcode.ofCode_eq_some.mp ho], hwf⟩
    next => cases h

/-! ## The condition of R58: per format, the operand bytes of a length and with the zero bits it asks for are written operands -/

theorem eq_pb_of_length {bs : List Byte} (h : bs.length = 2 + (bs.getD 1 0).toNat) :
    ∃ a d, d.length ≤ 255 ∧ bs = a :: countByte d :: d := by
  match bs, h with
  | a :: n :: d, h =>
    obtain ⟨hd, rfl⟩ := eq_countByte (n := n) (d := d) (by simp at h; omega)
    exact ⟨a, d, hd, rfl⟩

theorem eq_m1_of_length {bs : List Byte} (h : bs.length = 4) (hi : (bs.getD 2 0).toNat < 16) :
    ∃ ch i1 i2 len, bs = [ch, i1, i2Byte i2, len] := by
  match bs, h with
  | [ch, i1, b, len], _ => exact ⟨ch, i1, b.setWidth 4, len, by rw [i2Byte_of_lt (b := b) hi]⟩

theorem eq_m2_of_length {bs : List Byte} (h : bs.length = 4 + (bs.getD 3 0).toNat) (hi : (bs.getD 2 0).toNat < 16) :
    ∃ ch i1 i2 d, d.length ≤ 255 ∧ bs = ch :: i1 :: i2Byte i2 :: countByte d :: d := by
  match bs, h with
  | ch :: i1 :: b :: n :: d, h =>
    obtain ⟨hd, rfl⟩ := eq_countByte (n := n) (d := d) (by simp at h; omega)
    exact ⟨ch, i1, b.setWidth 4, d, hd, by rw [i2Byte_of_lt (b := b) hi]⟩

theorem eq_m3_of_length {bs : List Byte} (h : bs.length = 5 + (bs.getD 3 0).toNat) (hi : (bs.getD 2 0).toNat < 16)
    (hr : (bs.getD 4 0).toNat < 2) :
    ∃ ch i1 i2 rak d, d.length ≤ 255 ∧ bs = ch :: i1 :: i2Byte i2 :: countByte d :: rakByte rak :: d := by
  match bs, h with
  | ch :: i1 :: b :: n :: r :: d, h =>
    obtain ⟨hd, rfl⟩ := eq_countByte (n := n) (d := d) (by simp at h; omega)
    exact ⟨ch, i1, b.setWidth 4, r.getLsbD 0, d, hd, by rw [i2Byte_of_lt (b := b) hi, rakByte_of_lt (b := r) hr]⟩
  | [_, _, _, _], h => simp at h; omega

/-- Bytes that spell an operation are the encoding of a well-formed one (R58, R59). -/
theorem exists_encode_of_spellsOperation {d : List Byte} (h : SpellsOperation d) : ∃ i : Instr, i.wf = true ∧ encode i = d := by
  obtain ⟨_, bs, o, rfl, rfl, hlen, hi2, hrak⟩ := h
  cases o <;> simp only [Opcode.format, Format.length, List.length_cons, List.getD_cons_succ] at hlen hi2 hrak
  case wrreg =>
    obtain ⟨a, v, rfl⟩ := List.length_eq_two.mp (Nat.succ.inj hlen)
    exact ⟨.wrreg a v, rfl, rfl⟩
  case rdblk =>
    obtain ⟨a, n, rfl⟩ := List.length_eq_two.mp (Nat.succ.inj hlen)
    exact ⟨.rdblk a n, rfl, rfl⟩
  case wrblk =>
    obtain ⟨a, d, hd, rfl⟩ := eq_pb_of_length (bs := bs) (by omega)
    exact ⟨.wrblk a d, decide_eq_true hd, rfl⟩
  case rdreg =>
    obtain ⟨a, rfl⟩ := List.length_eq_one_iff.mp (Nat.succ.inj hlen)
    exact ⟨.rdreg a, rfl, rfl⟩
  case chdis =>
    obtain ⟨ch, rfl⟩ := List.length_eq_one_iff.mp (Nat.succ.inj hlen)
    exact ⟨.chdis ch, rfl, rfl⟩
  case rdmsg =>
    obtain ⟨ch, rfl⟩ := List.length_eq_one_iff.mp (Nat.succ.inj hlen)
    exact ⟨.rdmsg ch, rfl, rfl⟩
  case chrx =>
    obtain ⟨ch, i1, i2, len, rfl⟩ := eq_m1_of_length (Nat.succ.inj hlen) (hi2 (by decide))
    exact ⟨.chrx ch i1 i2 len, rfl, rfl⟩
  case chrrn =>
    obtain ⟨ch, i1, i2, len, rfl⟩ := eq_m1_of_length (Nat.succ.inj hlen) (hi2 (by decide))
    exact ⟨.chrrn ch i1 i2 len, rfl, rfl⟩
  case chrr =>
    obtain ⟨ch, i1, i2, len, rfl⟩ := eq_m1_of_length (Nat.succ.inj hlen) (hi2 (by decide))
    exact ⟨.chrr ch i1 i2 len, rfl, rfl⟩
  case chrrd =>
    obtain ⟨ch, i1, i2, len, rfl⟩ := eq_m1_of_length (Nat.succ.inj hlen) (hi2 (by decide))
    exact ⟨.chrrd ch i1 i2 len, rfl, rfl⟩
  case chir =>
    obtain ⟨ch, i1, i2, d, hd, rfl⟩ := eq_m2_of_length (bs := bs) (by omega) (hi2 (by decide))
    exact ⟨.chir ch i1 i2 d, decide_eq_true hd, rfl⟩
  case chdr =>
    obtain ⟨ch, i1, i2, d, hd, rfl⟩ := eq_m2_of_length (bs := bs) (by omega) (hi2 (by decide))
    exact ⟨.chdr ch i1 i2 d, decide_eq_true hd, rfl⟩
  case chtx =>
    obtain ⟨ch, i1, i2, rak, d, hd, rfl⟩ := eq_m3_of_length (bs := bs) (by omega) (hi2 (by decide)) (hrak trivial)
    exact ⟨.chtx ch i1 i2 rak d, decide_eq_true hd, rfl⟩
  case lastch =>
    obtain rfl := List.eq_nil_of_length_eq_zero (Nat.succ.inj hlen)
    exact ⟨.lastch, rfl, rfl⟩
  case rderr =>
    obtain rfl := List.eq_nil_of_length_eq_zero (Nat.succ.inj hlen)
    exact ⟨.rderr, rfl, rfl⟩

/-- The descriptor of a well-formed operation is as long as its own bytes announce (R59). -/
theorem encode_length {i : Instr} (h : i.wf = true) :
    (encode i).length = i.opcode.format.length fun k => (encode i).getD k 0 := by
  cases i
  case wrreg => exact (Laws.DescriptorLength.wrreg _ _ h).1
  case wrblk => exact (Laws.DescriptorLength.wrblk _ _ h).1
  case rdreg => exact (Laws.DescriptorLength.rdreg _ h).1
  case rdblk => exact (Laws.DescriptorLength.rdblk _ _ h).1
  case chdis => exact (Laws.DescriptorLength.chdis _ h).1
  case chtx => exact (Laws.DescriptorLength.chtx _ _ _ _ _ h).1
  case chrx => exact (Laws.DescriptorLength.chrx _ _ _ _ h).1
  case chrrn => exact (Laws.DescriptorLength.chrrn _ _ _ _ h).1
  case chrr => exact (Laws.DescriptorLength.chrr _ _ _ _ h).1
  case chir => exact (Laws.DescriptorLength.chir _ _ _ _ h).1
  case chdr => exact (Laws.DescriptorLength.chdr _ _ _ _ h).1
  case chrrd => exact (Laws.DescriptorLength.chrrd _ _ _ _ h).1
  case rdmsg => exact (Laws.DescriptorLength.rdmsg _ h).1
  case lastch => exact (Laws.DescriptorLength.lastch h).1
  case rderr => exact (Laws.DescriptorLength.rderr h).1

theorem i2Byte_lt (n : Nibble) : (i2Byte n).toNat < 16 := by
  rw [i2Byte, BitVec.toNat_setWidth]
  omega

theorem rakByte_lt (r : Bool) : (rakByte r).toNat < 2 := by
  cases r <;> decide

theorem spellsOperation_encode {i : Instr} (h : i.wf = true) : SpellsOperation (encode i) := by
  refine ⟨_, i.operandBytes, i.opcode, rfl, rfl, encode_length h, ?_⟩
  cases i
  case chrx | chrrn | chrr | chrrd | chir | chdr => exact ⟨fun _ => i2Byte_lt _, nofun⟩
  case chtx => exact ⟨fun _ => i2Byte_lt _, fun _ => rakByte_lt _⟩
  all_goals exact ⟨by simp [Instr.opcode, Opcode.format], nofun⟩

/-- R58's condition is what the decoder accepts. -/
theorem spellsOperation_iff {d : List Byte} : SpellsOperation d ↔ ∃ i, decode d = .ok i := by
  constructor
  · intro h
    obtain ⟨i, hi, rfl⟩ := exists_encode_of_spellsOperation h
    exact ⟨i, decodeOfEncodeIsIdentity i hi⟩
  · rintro ⟨i, h⟩
    obtain ⟨rfl, hi⟩ := encodeOfDecodeIsIdentity d i h
    exact spellsOperation_encode hi

/-! ## Presentation -/

open Machine

theorem step_present {s : State} {d : List Byte} {rest : List Input} (h : s.inputs = .present d :: rest) :
    step s = State.takeDescriptor { s with inputs := rest } d := by
  simp only [step, State.stepInput, h, State.consumeInput, List.tail_cons]

theorem step_present_accepted {s : State} {d : List Byte} {i : Instr} {rest : List Input} (hb : s.busy = false)
    (h : s.inputs = .present d :: rest) (hd : decode d = .ok i) : step s = exec i { s with inputs := rest } := by
  simp [step_present h, State.takeDescriptor, hb, hd]

theorem step_present_rejected {s : State} {d : List Byte} {e : Rejection} {rest : List Input} (hb : s.busy = false)
    (h : s.inputs = .present d :: rest) (hd : decode d = .error e) : step s = .next (State.reject { s with inputs := rest }) := by
  simp [step_present h, State.takeDescriptor, hb, hd]

theorem step_present_busy {s : State} {d : List Byte} {rest : List Input} (hb : s.busy = true)
    (h : s.inputs = .present d :: rest) : step s = .next { s with inputs := rest } := by
  simp [step_present h, State.takeDescriptor, hb]

/-- Settles O3: R58's condition is what the decoder accepts. -/
theorem descriptorPerformedOrRejected : Obligations.DescriptorPerformedOrRejected := by
  intro s d rest hb hin
  constructor
  · intro h
    obtain ⟨i, hi⟩ := spellsOperation_iff.mp h
    exact ⟨i, hi, step_present_accepted hb hin hi⟩
  · intro h
    cases hd : decode d with
    | ok i => exact absurd (spellsOperation_iff.mpr ⟨i, hd⟩) h
    | error e => exact step_present_rejected hb hin hd

/-- Settles O4: the descriptors are closed terms, and the decoder computes. -/
theorem writtenOutDescriptorsDecode : Obligations.WrittenOutDescriptorsDecode := by
  unfold Obligations.WrittenOutDescriptorsDecode
  decide

/-- Settles O5: the presentation is the first move, and BUSY = 0 lets it in. -/
theorem stepRunsTheDecodedOperation : Obligations.StepRunsTheDecodedOperation :=
  fun _ _ _ _ hb hin hd => step_present_accepted hb hin hd

end Sys2Proof
end

section
/-! PROOF. What one step does (10_state.md R13, R17, R21, R22), and what an operation leaves alone whether or not it is held: an
operation begins or ends a transaction, or moves within one, and each of the three leaves most of the state as it was. -/

namespace Sys2Proof.Machine

/-! ## One step -/

theorem State.loaded_opcode (s : State) (i : Instr) : (s.loaded i).opcode = some i.opcode :=
  (congrArg Opcode.ofCode (s.loaded_fields i).1).trans i.opcode.ofCode_code

/-- A step is a reset, runs the operation in progress on under some credit, takes a move that changes nothing of the block, rejects
a descriptor, or accepts an operation and runs it. -/
theorem step_cases {s t : State} (h : step s = .next t) :
    (s.inputs.head? = some .reset ∧ t = s.consumeInput.afterReset) ∨
    (∃ c, t = State.resume { s.consumeInput with transport := { s.transport with credit := c } }) ∨
    (s.busy = true ∧ t = s.consumeInput) ∨
    (s.busy = false ∧ t = s.consumeInput.reject) ∨
    (s.busy = false ∧ ∃ i, t = (s.consumeInput.loaded i).resume) := by
  unfold step State.stepInput at h
  split at h
  next hin =>
    cases h
    have htail : s.inputs.tail = s.inputs := by rw [hin]; rfl
    have hs : s.consumeInput = s := by rw [State.consumeInput, htail]
    exact .inr (.inl ⟨s.transport.credit, by rw [hs]⟩)
  next hin =>
    cases h
    exact .inl ⟨by rw [hin]; rfl, rfl⟩
  next c _ hin =>
    cases h
    exact .inr (.inl ⟨c, rfl⟩)
  next d _ hin =>
    have hb : s.consumeInput.busy = s.busy := rfl
    simp only [State.takeDescriptor, hb] at h
    split at h
    next hbusy =>
      cases h
      exact .inr (.inr (.inl ⟨hbusy, rfl⟩))
    next hbusy =>
      rw [Bool.not_eq_true] at hbusy
      split at h
      next i _ =>
        rw [exec_eq_resume] at h
        cases h
        exact .inr (.inr (.inr (.inr ⟨hbusy, i, rfl⟩)))
      next =>
        cases h
        exact .inr (.inr (.inr (.inl ⟨hbusy, rfl⟩)))

theorem exec_next {s t : State} {i : Instr} (h : exec i s = .next t) : t = (s.loaded i).resume := by
  rw [exec_eq_resume] at h
  exact (Host.Outcome.next.inj h).symm

/-- Settles O44: every arm of `exec`, and every move of host and Transport, answers with a next state. -/
theorem nothingFaultsOrIsRefused : Obligations.NothingFaultsOrIsRefused := by
  have hexec (i : Instr) (s : State) : ∃ t, exec i s = .next t := ⟨_, exec_eq_resume i s⟩
  refine ⟨hexec, fun s => ?_⟩
  unfold step State.stepInput
  split
  case h_4 =>
    unfold State.takeDescriptor
    split
    · exact ⟨_, rfl⟩
    · split
      · exact hexec _ _
      · exact ⟨_, rfl⟩
  all_goals exact ⟨_, rfl⟩

theorem State.resume_of_not_running {s : State} (h : s.running = false) : s.resume = s := State.run_of_not_running h _

theorem step_of_no_input {s : State} (h : s.inputs = []) : step s = .next s.resume := by
  simp only [step, State.stepInput, h]

/-- Settles O6: only BUSY = 0 lets a descriptor in, and an idle block has no move of its own. -/
theorem onlyAnIdleBlockTakesADescriptor : Obligations.OnlyAnIdleBlockTakesADescriptor := by
  refine ⟨fun s d rest hb hin => step_present_busy hb hin, fun s hb hin => ?_⟩
  rw [step_of_no_input hin, State.resume_of_not_running (State.not_running_of_idle hb)]

/-- Settles O43: `State.afterReset` writes the table's values and keeps the surroundings. -/
theorem resetLeavesTheTableOfValues : Obligations.ResetLeavesTheTableOfValues := by
  refine ⟨fun s rest hin => ⟨s.consumeInput.afterReset, by simp only [step, State.stepInput, hin], ?_⟩, by decide⟩
  have hrest : s.consumeInput.afterReset.inputs = rest := congrArg List.tail hin
  exact ⟨rfl, rfl, rfl, rfl, rfl, rfl, rfl, rfl, rfl, rfl, hrest, rfl⟩

/-- Settles O47: a run keeps the parameters, and so does everything else a step can do. -/
theorem parametersNeverChange : Obligations.ParametersNeverChange := by
  intro s t h
  obtain ⟨-, rfl⟩ | ⟨c, rfl⟩ | ⟨-, rfl⟩ | ⟨-, rfl⟩ | ⟨-, i, rfl⟩ := step_cases h
  · rfl
  · exact (State.resume_sameOperands _).cfg
  · rfl
  · rfl
  · obtain ⟨-, -, -, -, -, -, -, -, -, -, -, hcfg⟩ := s.consumeInput.loaded_fields i
    exact (State.resume_sameOperands _).cfg.trans hcfg

/-! ## What every move of an operation keeps -/

section
variable {P : State → Prop} (hwithin : ∀ s t, SameLatches s t → P s → P t)
  (hbegin : ∀ s f, s.currentFrame = some f → P s → P (s.begun f)) (hfinish : ∀ s, P s → P s.finish)
  (hcollect : ∀ s, P s → P { s.collect with mstep := s.mstep + 1 })
include hwithin hbegin hfinish hcollect

/-- What the start and the end of a transaction, the end of the operation and every move that leaves the latches alone keep is kept
by every move. -/
theorem State.tick_keeps (s : State) (h : P s) : P s.tick := by
  have hstart (s : State) (h : P s) : P s.beginTransaction := by
    cases hf : s.currentFrame with
    | none => exact (State.beginTransaction_none hf) ▸ hfinish s h
    | some f => exact (State.beginTransaction_some hf) ▸ hbegin s f hf h
  by_cases h0 : s.ph = .idle
  · simpa only [State.tick, h0] using hstart s h
  by_cases h1 : s.ph = .wDesel
  · simp only [State.tick, h1]
    exact hstart _ (hcollect _ (hwithin s _ (s.delay_sameLatches _) h))
  · exact hwithin s _ (State.tick_sameLatches h0 h1) h

theorem State.resume_keeps {s : State} (h : P s) : P s.resume :=
  State.run_keeps (fun s _ => State.tick_keeps hwithin hbegin hfinish hcollect s) h _

end

/-- PTR and RDMSG's intermediate values, which RDMSG alone writes once an operation is accepted (R131). -/
structure SameIntermediates (s t : State) : Prop where
  ptr : t.ptr = s.ptr
  b0 : t.b0 = s.b0
  b1 : t.b1 = s.b1
  p : t.p = s.p
  sta : t.sta = s.sta

theorem State.finish_sameIntermediates (s : State) : SameIntermediates s s.finish := by
  unfold State.finish State.deliverResult
  constructor <;> dsimp only <;> split <;> rfl

theorem State.resume_sameIntermediates {s : State} (h : s.opcode ≠ some .rdmsg) : SameIntermediates s s.resume := by
  refine (State.resume_keeps (P := fun t => t.opcode ≠ some .rdmsg ∧ SameIntermediates s t) ?_ ?_ ?_ ?_
    ⟨h, rfl, rfl, rfl, rfl, rfl⟩).2
  · rintro t u hu ⟨ho, ptr, b0, b1, p, sta⟩
    exact ⟨State.opcode_congr hu.op ▸ ho, hu.ptr.trans ptr, hu.b0.trans b0, hu.b1.trans b1, hu.p.trans p, hu.sta.trans sta⟩
  · rintro t f - ⟨ho, ptr, b0, b1, p, sta⟩
    exact ⟨ho, ptr, b0, b1, p, sta⟩
  · rintro t ⟨ho, ptr, b0, b1, p, sta⟩
    have hu := t.finish_sameIntermediates
    exact ⟨State.opcode_congr t.finish_sameOperands.op ▸ ho, hu.ptr.trans ptr, hu.b0.trans b0, hu.b1.trans b1, hu.p.trans p,
      hu.sta.trans sta⟩
  · rintro t ⟨ho, ptr, b0, b1, p, sta⟩
    rw [State.collect_of_not_rdmsg ho]
    exact ⟨ho, ptr, b0, b1, p, sta⟩

/-- Settles O31: acceptance loads none of these latches, and the run writes none. -/
theorem nonChannelOperationsFrame : Obligations.NonChannelOperationsFrame := by
  intro s t i hi h
  obtain rfl := exec_next h
  have hne : (s.loaded i).opcode ≠ some .rdmsg := by
    rw [s.loaded_opcode]
    rintro hop
    simp [Option.some.inj hop] at hi
  have ho := (s.loaded i).resume_sameOperands
  have hm := State.resume_sameIntermediates hne
  rw [ho.ch, ho.id1, ho.id2, ho.len, ho.rakl, hm.ptr, ho.bIdcmd, ho.bMptr, ho.bLsta, hm.b0, hm.b1, hm.p, hm.sta, ho.inputs, ho.cfg]
  cases i
  case wrreg | wrblk | rdreg | rdblk | lastch | rderr =>
    exact ⟨rfl, rfl, rfl, rfl, rfl, rfl, rfl, rfl, rfl, rfl, rfl, rfl, rfl, rfl, rfl⟩
  all_goals simp [Instr.opcode] at hi

/-- Settles O32: acceptance loads the latches an operation's rule names, and the run keeps them but for PTR and RDMSG's own. -/
theorem channelOperationsFrame : Obligations.ChannelOperationsFrame := by
  intro s t
  refine ⟨fun ch h => ?_, fun i hi h => ?_, fun i hi h => ?_, fun ch h => ?_⟩ <;> obtain rfl := exec_next h
  · have ho := (s.loaded (.chdis ch)).resume_sameOperands
    have hm : SameIntermediates (s.loaded (.chdis ch)) _ := State.resume_sameIntermediates (by simp [s.loaded_opcode, Instr.opcode])
    exact ⟨ho.ch, ho.id1, ho.id2, ho.len, hm.ptr, ho.bIdcmd, ho.bMptr, ho.bLsta⟩
  · refine (s.loaded i).resume_sameOperands.rakl.trans ?_
    cases i
    case chdis | chrx | chrrn | chrr | chir | chdr | chrrd | rdmsg => rfl
    all_goals simp [Instr.opcode] at hi
  · have hne : (s.loaded i).opcode ≠ some .rdmsg := by
      rw [s.loaded_opcode]
      rintro hop
      simp [Option.some.inj hop] at hi
    have ho := (s.loaded i).resume_sameOperands
    have hm := State.resume_sameIntermediates hne
    rw [hm.b0, hm.b1, hm.p, hm.sta, ho.inputs, ho.cfg]
    cases i
    case chdis | chtx | chrx | chrrn | chrr | chir | chdr | chrrd => exact ⟨rfl, rfl, rfl, rfl, rfl, rfl⟩
    all_goals simp [Instr.opcode] at hi
  · have ho := (s.loaded (.rdmsg ch)).resume_sameOperands
    exact ⟨ho.ch, ho.id1, ho.id2, ho.len, ho.bIdcmd, ho.bMptr, ho.bLsta, ho.inputs, ho.cfg⟩

/-! ## Results -/

/-- The operations that write, beside RDERR, deliver nothing (R16). -/
theorem State.deliverResult_of_writes {s : State} (h : s.reads = false) (hne : s.opcode ≠ some .rderr) : s.deliverResult = s := by
  unfold State.reads at h
  unfold State.deliverResult
  split <;> simp_all [opcodeReads]

theorem State.resume_result {s : State} (h : s.reads = false) (hne : s.opcode ≠ some .rderr) :
    s.resume.rbuf = s.rbuf ∧ s.resume.rlen = s.rlen ∧ s.resume.epoch = s.epoch := by
  refine (State.resume_keeps (P := fun t => t.op = s.op ∧ t.rbuf = s.rbuf ∧ t.rlen = s.rlen ∧ t.epoch = s.epoch) ?_ ?_ ?_ ?_
    ⟨rfl, rfl, rfl, rfl⟩).2
  · rintro t u hu ⟨op, rbuf, rlen, epoch⟩
    exact ⟨hu.op.trans op, hu.rbuf.trans rbuf, hu.rlen.trans rlen, hu.epoch.trans epoch⟩
  · rintro t f - h
    exact h
  · rintro t ⟨op, rbuf, rlen, epoch⟩
    rw [State.finish, State.deliverResult_of_writes ((State.reads_congr op).trans h) (State.opcode_congr op ▸ hne)]
    exact ⟨op, rbuf, rlen, epoch⟩
  · rintro t ⟨op, rbuf, rlen, epoch⟩
    have hu := t.collect_sameBlock
    exact ⟨hu.op.trans op, hu.rbuf.trans rbuf, hu.rlen.trans rlen, hu.epoch.trans epoch⟩

/-- Settles O33: these operations deliver nothing at their end, and nothing else writes a result. -/
theorem writersLeaveResultsUnchanged : Obligations.WritersLeaveResultsUnchanged := by
  intro s t i hi h
  obtain rfl := exec_next h
  have hop := s.loaded_opcode i
  obtain ⟨hr, hne⟩ : opcodeReads i.opcode = false ∧ i.opcode ≠ .rderr := by
    revert hi
    cases i.opcode <;> decide
  obtain ⟨-, -, -, -, -, -, lrbuf, lrlen, -, lepoch, -, -⟩ := s.loaded_fields i
  obtain ⟨rbuf, rlen, epoch⟩ := State.resume_result ((State.reads_of_opcode hop).trans hr) (by rw [hop]; simpa using hne)
  refine ⟨rlen.trans lrlen, fun j _ => ?_⟩
  simp only [State.resultByte, rbuf, rlen, epoch, lrbuf, lrlen, lepoch]

/-! ## DBUF -/

theorem State.finish_dbuf (s : State) : s.finish.dbuf = s.dbuf := by
  unfold State.finish State.deliverResult
  dsimp only
  split <;> rfl

theorem State.collect_dbuf (s : State) : s.collect.dbuf = s.dbuf := by
  obtain ⟨-, -, -, -, -, -, -, -, hd, -, -⟩ := s.collect_rest
  exact hd

/-- Single writes load `DBUF[0]`, nothing else does (R81). -/
theorem State.resume_dbuf_read {s : State} {j : Nat} (hj : j ≠ 0) : s.resume.dbuf.read j = s.dbuf.read j := by
  refine State.resume_keeps (P := fun t => t.dbuf.read j = s.dbuf.read j) ?_ ?_ ?_ ?_ rfl
  · intro t u hu h
    rw [hu.dbuf, h]
  · intro t f _ h
    simp only [State.begun]
    split
    · rw [Memory.read_write_other hj, h]
    · exact h
  · intro t h
    rw [t.finish_dbuf, h]
  · intro t h
    simpa only [t.collect_dbuf] using h

/-- The frames of an operation that reads carry no byte of their own (R51). -/
theorem State.frames_data_of_reads {s : State} {o : Opcode} (h : opcodeReads o = true) {f : Frame} (hf : f ∈ s.frames o) :
    f.data = none := by
  revert f
  cases o
  case rdreg | rdblk | rdmsg | lastch => simp [State.frames, State.messageFrames, Frame.block]
  all_goals contradiction

/-- An operation that reads, and RDERR, which has no frame, leave DBUF alone. -/
theorem State.resume_dbuf {s : State} {o : Opcode} (hop : s.opcode = some o) (ho : opcodeReads o = true ∨ o = .rderr) :
    s.resume.dbuf = s.dbuf := by
  refine (State.resume_keeps (P := fun t => t.opcode = some o ∧ t.dbuf = s.dbuf) ?_ ?_ ?_ ?_ ⟨hop, rfl⟩).2
  · rintro t u hu ⟨op, dbuf⟩
    exact ⟨(State.opcode_congr hu.op).trans op, hu.dbuf.trans dbuf⟩
  · rintro t f hf ⟨op, dbuf⟩
    have hmem : f ∈ t.frames o := List.mem_of_getElem? ((State.currentFrame_of_opcode op).symm.trans hf)
    have hdata : f.data = none := by
      obtain hr | rfl := ho
      · exact State.frames_data_of_reads hr hmem
      · exact absurd hmem List.not_mem_nil
    refine ⟨op, ?_⟩
    simp only [State.begun, hdata]
    exact dbuf
  · rintro t ⟨op, dbuf⟩
    exact ⟨(State.opcode_congr t.finish_sameOperands.op).trans op, t.finish_dbuf.trans dbuf⟩
  · rintro t ⟨op, dbuf⟩
    exact ⟨(State.opcode_congr t.collect_sameOperands.op).trans op, t.collect_dbuf.trans dbuf⟩

/-- Acceptance loads at most the first element of DBUF beyond the payload (WRREG's byte). -/
theorem State.loaded_dbuf_read {s : State} (hs : s.dbuf.wf = true) {i : Instr} (hi : i.wf = true) {j : Nat} (hj : j ≠ 0)
    (hlen : i.payload.length ≤ j) : (s.loaded i).dbuf.read j = s.dbuf.read j := by
  have hstaged : i.staged.length ≤ j := by
    cases i
    case wrreg => exact Nat.one_le_iff_ne_zero.mpr hj
    all_goals exact hlen
  rw [s.loaded_dbuf, Memory.read_load hs (Instr.staged_length hi), List.getElem?_eq_none hstaged]
  rfl

/-- Settles O34: the run touches element 0 alone, and that only in a single write; acceptance loads the payload. -/
theorem dbufFrame : Obligations.DbufFrame := by
  intro s t i hs h
  obtain rfl := exec_next h
  refine ⟨fun hi j => ?_, fun hi j hj hlen => (State.resume_dbuf_read hj).trans (State.loaded_dbuf_read hs hi hj hlen)⟩
  have ho : opcodeReads i.opcode = true ∨ i.opcode = .rderr := by
    revert hi
    cases i.opcode <;> decide
  have hload : (s.loaded i).dbuf = s.dbuf := by
    rw [s.loaded_dbuf]
    cases i
    case rdreg | rdblk | rdmsg | lastch | rderr => rfl
    all_goals simp [Instr.opcode] at hi
  rw [State.resume_dbuf (s.loaded_opcode i) ho, hload]

/-! ## The host's sequences -/

/-- Settles O49: both sequences are written out. -/
theorem bringUpSequence : Obligations.BringUpSequence := ⟨by decide, fun _ => rfl⟩

end Sys2Proof.Machine
end

section
/-! PROOF. Operand forms (30_encoding.md R57, R62 to R67; 41_register_map.md R90 to R93) and the mode table (42_channel_encoder.md
R101): what each pure function gives. -/

namespace Sys2Proof.Machine

/-! ## Identifiers -/

theorem identHigh_toNat (id : Ident) : (identHigh id).toNat = id.toNat / 16 := by
  have h := id.isLt
  simp only [identHigh, BitVec.extractLsb'_toNat, Nat.shiftRight_eq_div_pow]
  omega

theorem identLow_toNat (id : Ident) : (identLow id).toNat = id.toNat % 16 := by
  simp [identLow]

theorem identJoin_toNat (i1 : Byte) (i2 : Nibble) : (identJoin i1 i2).toNat = 16 * i1.toNat + i2.toNat := by
  have h := i2.isLt
  rw [identJoin, BitVec.toNat_append, ← Nat.shiftLeft_add_eq_or_of_lt h, Nat.shiftLeft_eq]
  omega

/-- Settles O7: joining is `16 * i1 + i2`, splitting quotient and remainder by 16. -/
theorem identifierSplitJoinInverse : Obligations.IdentifierSplitJoinInverse := by
  refine ⟨fun id => ⟨BitVec.eq_of_toNat_eq ?_, identHigh_toNat id, identLow_toNat id⟩,
    fun i1 i2 => ⟨BitVec.eq_of_toNat_eq ?_, BitVec.eq_of_toNat_eq ?_⟩⟩
  · rw [identJoin_toNat, identHigh_toNat, identLow_toNat]
    omega
  · have h := i2.isLt
    rw [identHigh_toNat, identJoin_toNat]
    omega
  · have h := i2.isLt
    rw [identLow_toNat, identJoin_toNat]
    omega

/-! ## Addresses -/

theorem chaddr_toNat (p : Params) (c : Byte) : (chaddr p c).toNat = (p.chBase.toNat + 8 * c.toNat) % 256 := by
  have hstride : chStride.toNat = 8 := rfl
  rw [chaddr, BitVec.toNat_add, BitVec.toNat_mul, hstride]
  omega

/-- With `CH_BASE + 63 < 0x80` (R31) no address of a channel's block wraps. -/
theorem chreg_toNat {p : Params} {c k : Byte} (hp : p.wf = true) (hc : c.toNat < 8) (hk : k.toNat < 8) :
    (chreg p c k).toNat = p.chBase.toNat + 8 * c.toNat + k.toNat ∧ (chreg p c k).toNat < 0x80 := by
  have hbase : p.chBase.toNat + 63 < 0x80 := by
    simp only [Params.wf, Bool.and_eq_true, decide_eq_true_eq] at hp
    omega
  rw [chreg, BitVec.toNat_add, chaddr_toNat]
  omega

theorem chaddr_reference {c : Byte} (hc : c.toNat < 8) : (chaddr referenceParams c).toNat = 0x10 + 8 * c.toNat := by
  have hbase : referenceParams.chBase.toNat = 0x10 := rfl
  rw [chaddr_toNat, hbase]
  omega

/-- Settles O8: no address of the eight blocks wraps, so that an address gives back channel and offset. -/
theorem channelBlocksPlacedAndDisjoint : Obligations.ChannelBlocksPlacedAndDisjoint := by
  refine ⟨chaddr_toNat, fun p c k => chreg_toNat, fun p c k c' k' hp hc hk hc' hk' h => ?_, fun c => chaddr_reference,
    by decide, by decide, by decide⟩
  have h1 := (chreg_toNat hp hc hk).1
  have h2 := (chreg_toNat hp hc' hk').1
  rw [h] at h1
  exact ⟨BitVec.eq_of_toNat_eq (by omega), BitVec.eq_of_toNat_eq (by omega)⟩

theorem mbaddr_toNat (off : Byte) : (mbaddr off).toNat = (0x80 + off.toNat) % 256 := by
  simp [mbaddr, mbBase]

/-- Settles O9: the address is the offset plus 128, modulo 256. -/
theorem mailboxAddresses : Obligations.MailboxAddresses := by
  refine ⟨fun off h => ?_, fun off off' _ _ h => add_left_cancel h, fun off h => ?_, by decide, by decide⟩ <;>
    rw [mbaddr_toNat] <;> unfold mbSize at h <;> omega

/-! ## Packed bytes -/

/-- IDCMD is its five fields side by side (R62). -/
theorem packIDCMD_fields (id2 : Nibble) (ext rak rnw rtr : Bool) :
    packIDCMD id2 ext rak rnw rtr =
      id2 ++ BitVec.ofBool ext ++ BitVec.ofBool rak ++ BitVec.ofBool rnw ++ BitVec.ofBool rtr ∧
    unpackId2 (packIDCMD id2 ext rak rnw rtr) = id2 ∧ unpackExt (packIDCMD id2 ext rak rnw rtr) = ext ∧
    unpackRak (packIDCMD id2 ext rak rnw rtr) = rak ∧ unpackRnw (packIDCMD id2 ext rak rnw rtr) = rnw ∧
    unpackRtr (packIDCMD id2 ext rak rnw rtr) = rtr := by
  revert id2 ext rak rnw rtr
  decide

theorem stripDrak_toNat (b : Byte) : (stripDrak b).toNat = b.toNat % 128 := by
  rw [stripDrak, BitVec.toNat_and]
  exact Nat.and_two_pow_sub_one_eq_mod _ 7

/-- MPTR is DRAK and the low 7 bits of the pointer (R63, R105). -/
theorem packMPTR_fields (drak : Bool) (p : Byte) :
    packMPTR drak p = BitVec.ofBool drak ++ p.extractLsb' 0 7 ∧ unpackDrak (packMPTR drak p) = drak ∧
    stripDrak (packMPTR drak p) = stripDrak p := by
  revert drak p
  decide

/-- LSTA is the low 5 bits of the length and its three flags (R64). -/
theorem packLSTA_fields (m : Byte) (cher chtx chrx : Bool) :
    packLSTA m cher chtx chrx =
      m.extractLsb' 0 5 ++ BitVec.ofBool cher ++ BitVec.ofBool chtx ++ BitVec.ofBool chrx ∧
    (unpackML (packLSTA m cher chtx chrx)).toNat = m.toNat % 32 ∧ unpackCher (packLSTA m cher chtx chrx) = cher ∧
    unpackChtx (packLSTA m cher chtx chrx) = chtx ∧ unpackChrx (packLSTA m cher chtx chrx) = chrx := by
  revert m cher chtx chrx
  decide

theorem statusLength_toNat (sta : Byte) : (statusLength sta).toNat = sta.toNat % 32 := by
  rw [statusLength, BitVec.toNat_and]
  exact Nat.and_two_pow_sub_one_eq_mod _ 5

theorem statusCommand_toNat (sta : Byte) : (statusCommand sta).toNat = sta.toNat / 32 := by
  rw [statusCommand, BitVec.toNat_ushiftRight]
  exact Nat.shiftRight_eq_div_pow _ 5

/-- Settles O10: the fields do not overlap. -/
theorem packedByteLayouts : Obligations.PackedByteLayouts := by
  refine ⟨packIDCMD_fields, fun drak p => ?_, packLSTA_fields, fun sta => ⟨statusLength_toNat sta, statusCommand_toNat sta⟩⟩
  obtain ⟨happend, hdrak, hpointer⟩ := packMPTR_fields drak p
  exact ⟨happend, hdrak, by rw [hpointer, stripDrak_toNat]⟩

/-! ## The mode table -/

theorem unpackML_modeLsta_toNat (m : ModeRow) (len : Byte) : (unpackML (modeLsta m len)).toNat = (len.toNat + 1) % 32 := by
  obtain ⟨-, hml, -⟩ := packLSTA_fields (messageLength len) false m.chtx m.chrx
  rw [modeLsta, hml, messageLength, BitVec.toNat_add, show (1 : Byte).toNat = 1 from rfl]
  omega

/-- Settles O11: the field is `L + 1` modulo 32, whatever the mode. -/
theorem lengthFieldRoundTrip : Obligations.LengthFieldRoundTrip := by
  refine ⟨fun o len _ hl => ?_, fun o => BitVec.eq_of_toNat_eq ?_⟩ <;> rw [unpackML_modeLsta_toNat]
  · omega
  · rfl

theorem flagsOf_packed (id2 : Nibble) (ext rak rnw rtr drak cher chtx chrx : Bool) (ptr m : Byte) :
    flagsOf (packIDCMD id2 ext rak rnw rtr) (packMPTR drak ptr) (packLSTA m cher chtx chrx) =
      [rnw, rtr, chtx, chrx, drak, ext, rak] := by
  obtain ⟨-, -, hext, hrak, hrnw, hrtr⟩ := packIDCMD_fields id2 ext rak rnw rtr
  obtain ⟨-, hdrak, -⟩ := packMPTR_fields drak ptr
  obtain ⟨-, -, -, hchtx, hchrx⟩ := packLSTA_fields m cher chtx chrx
  rw [flagsOf, hext, hrak, hrnw, hrtr, hdrak, hchtx, hchrx]

/-- Settles O12: the flags go into the packed bytes as they stand in the mode's row, beside identifier, pointer and length. -/
theorem modeFlagsAreTheTable : Obligations.ModeFlagsAreTheTable := by
  refine ⟨fun id2 rak len ptr => ?_, fun ch len => ⟨rfl, fun o ho => ?_⟩, fun s o => ?_, fun s => rfl, by decide⟩
  · simp [modeIdcmd, modeMptr, modeLsta, modeRow, flagsOf_packed]
  · revert ho
    cases o
    case chrx | chrrn | chrr | chir | chdr | chrrd => exact fun _ => rfl
    all_goals simp
  · cases o <;> rfl

theorem messagePointer_of_not_topOfRam {m : ModeRow} (h : m.topOfRam = false) (ch len : Byte) :
    messagePointer m ch len = ch * 30 := by
  simp [messagePointer, h, rxSpacing]

theorem topOfRam_of_mem {o : Opcode} (h : o ∈ [Opcode.chrx, .chrrn, .chrr, .chir, .chdr, .chrrd]) :
    (modeRow o).topOfRam = false := by
  revert h
  cases o <;> decide

/-- Settles O13: the field is the pointer modulo 128. -/
theorem pointerValueAndField : Obligations.PointerValueAndField := by
  have hfield (o : Opcode) (ptr : Byte) : stripDrak (modeMptr (modeRow o) ptr) = stripDrak ptr := by
    obtain ⟨-, -, h⟩ := packMPTR_fields (modeRow o).drak ptr
    exact h
  have hmul {ch : Byte} (h : ch.toNat ≤ 7) : (ch * 30).toNat = 30 * ch.toNat := by
    rw [BitVec.toNat_mul, show (30 : Byte).toNat = 30 from rfl]
    omega
  refine ⟨fun o ch len ho hch => ?_, fun ch len hl => ?_, fun o ptr => ?_, fun o len ho => ?_⟩
  · rw [messagePointer_of_not_topOfRam (topOfRam_of_mem ho), hmul hch]
  · have hptr : messagePointer (modeRow .chtx) ch len = 127 - (len + 1) := rfl
    rw [hptr]
    bv_omega
  · rw [hfield, stripDrak_toNat]
  · simp only [hfield, messagePointer_of_not_topOfRam (topOfRam_of_mem ho)]
    refine ⟨fun ch hch => BitVec.eq_of_toNat_eq ?_, by decide, by decide, by decide⟩
    rw [stripDrak_toNat, hmul (by omega)]
    omega

/-! ## The one error -/

/-- Settles O26: field by field. -/
theorem mismatchOnlyCounts : Obligations.MismatchOnlyCounts := by
  refine ⟨fun _ _ => rfl, fun s hp => ?_, fun s hp => ?_⟩ <;> simp only [State.tick, hp] <;>
    ext1 <;> simp [State.next_eq_answer]

end Sys2Proof.Machine
end

section
/-! PROOF. Running until idle or held (10_state.md R17, R79; log 3, log 4): every move of an operation leaves fewer moves to come, and
what the Transport completes decides when the moves are made, not what they are. -/

namespace Sys2Proof.Machine

/-! ## How many moves an operation has left -/

/-- The moves from the first test of `I < N` with index `i` to the end of the last delay slot, were `I` never to wrap. -/
def payloadMovesLeft (n i : Byte) : Nat := 2 * (n.toNat - i.toNat) + 2

/-- A bound on the moves of the transaction under way; an idle phase has a whole one before it. -/
def State.transactionMovesLeft (s : State) : Nat :=
  match s.ph with
  | .idle => 519
  | .select => 6 + payloadMovesLeft s.n s.i
  | .wSel => 5 + payloadMovesLeft s.n s.i
  | .addr => 4 + payloadMovesLeft s.n s.i
  | .wAddr => 3 + payloadMovesLeft s.n s.i
  | .cmd => 2 + payloadMovesLeft s.n s.i
  | .wCmd => 1 + payloadMovesLeft s.n s.i
  | .data => 2 + payloadMovesLeft s.n (s.i + 1)
  | .wData => 1 + payloadMovesLeft s.n (s.i + 1)
  | .deselect => 2
  | .wDesel => 1

/-- A bound on the moves of the operation in progress: after the first transaction at most five of at most 31 payload bytes follow. -/
def State.movesLeft (s : State) : Nat := s.transactionMovesLeft + 70 * (5 - s.mstep)

theorem payloadMovesLeft_le (n i : Byte) : payloadMovesLeft n i ≤ 512 := by
  have h := n.isLt
  unfold payloadMovesLeft
  omega

theorem State.movesLeft_le_moveBound (s : State) : s.movesLeft ≤ moveBound := by
  have h := payloadMovesLeft_le s.n s.i
  have h' := payloadMovesLeft_le s.n (s.i + 1)
  unfold State.movesLeft State.transactionMovesLeft moveBound
  split <;> omega

theorem State.payloadOrEnd_transactionMovesLeft (s : State) :
    s.payloadOrEnd.transactionMovesLeft = payloadMovesLeft s.n s.i := by
  by_cases h : s.i < s.n
  · have hlt : s.i.toNat < s.n.toNat := h
    have hn := s.n.isLt
    have hi : (s.i + 1).toNat = s.i.toNat + 1 := by
      rw [BitVec.toNat_add, show (1 : Byte).toNat = 1 from rfl]
      omega
    simp only [State.payloadOrEnd, h, if_true, State.transactionMovesLeft, payloadMovesLeft, hi]
    omega
  · have hle : s.n.toNat ≤ s.i.toNat := Nat.not_lt.mp h
    simp only [State.payloadOrEnd, h, if_false, State.transactionMovesLeft, payloadMovesLeft]
    omega

/-- Only an operation's first transaction is a long one, and none has more than six. -/
theorem State.frames_later {s : State} {o : Opcode} {m : Nat} {f : Frame} (h : (s.frames o)[m + 1]? = some f) :
    m + 1 ≤ 5 ∧ f.count.toNat ≤ 31 := by
  have hlen : m + 1 < (s.frames o).length := (List.getElem?_eq_some_iff.mp h).1
  have hmem : f ∈ (s.frames o).tail := by
    rw [← List.drop_one]
    exact List.mem_of_getElem? (List.getElem?_drop.trans (Nat.add_comm 1 m ▸ h))
  have hsta := statusLength_toNat s.sta
  refine ⟨?_, ?_⟩
  · cases o <;> simp [State.frames, State.disableFrames, State.configureFrames, State.registerFrames, State.messageFrames,
      modeRow] at hlen <;> omega
  · have key : ∀ g ∈ (s.frames o).tail, g.count = 1 ∨ g.count = statusLength s.sta := by
      cases o <;> simp [State.frames, State.disableFrames, State.configureFrames, State.registerFrames, State.messageFrames,
        modeRow, Frame.single, Frame.block]
    obtain h1 | h1 := key f hmem <;> rw [h1]
    · decide
    · omega

theorem State.begun_transactionMovesLeft (s : State) (f : Frame) :
    (s.begun f).transactionMovesLeft = 8 + 2 * f.count.toNat := by
  simp only [State.transactionMovesLeft, State.begun, payloadMovesLeft, show (0 : Byte).toNat = 0 from rfl]
  omega

/-- The next transaction, if there is one, has fewer moves than were allowed for it. -/
theorem State.nextTransaction_movesLeft (s : State) :
    s.nextTransaction.busy = false ∨ s.nextTransaction.movesLeft < 1 + 70 * (5 - s.mstep) := by
  unfold State.nextTransaction
  generalize hs' : ({ s.collect with mstep := s.mstep + 1 } : State) = s'
  cases hf : s'.currentFrame with
  | none =>
    rw [State.beginTransaction_none hf]
    exact .inl rfl
  | some f =>
    have hm : s'.mstep = s.mstep + 1 := hs' ▸ rfl
    obtain ⟨h1, h2⟩ : s.mstep + 1 ≤ 5 ∧ f.count.toNat ≤ 31 := by
      cases ho : s'.opcode with
      | none => simp [State.currentFrame, ho] at hf
      | some o => exact State.frames_later (hm ▸ (State.currentFrame_of_opcode ho).symm.trans hf)
    have hb : (s'.begun f).mstep = s'.mstep := rfl
    rw [State.beginTransaction_some hf, State.movesLeft, State.begun_transactionMovesLeft, hb, hm]
    exact .inr (by omega)

/-- Every move ends the operation or leaves fewer to come. -/
theorem State.tick_movesLeft (s : State) : s.tick.busy = false ∨ s.tick.movesLeft < s.movesLeft := by
  cases hp : s.ph
  case idle =>
    have hs : s.movesLeft = 519 + 70 * (5 - s.mstep) := by simp only [State.movesLeft, State.transactionMovesLeft, hp]
    simp only [State.tick, hp]
    cases hf : s.currentFrame with
    | none =>
      rw [State.beginTransaction_none hf]
      exact .inl rfl
    | some f =>
      have hb : (s.begun f).mstep = s.mstep := rfl
      have hc := f.count.isLt
      rw [State.beginTransaction_some hf, State.movesLeft, State.begun_transactionMovesLeft, hb, hs]
      exact .inr (by omega)
  case wDesel =>
    have hs : s.movesLeft = 1 + 70 * (5 - s.mstep) := by simp only [State.movesLeft, State.transactionMovesLeft, hp]
    simpa only [State.tick, hp, hs, State.delay_mstep] using (s.delay s.cfg.tDesel).nextTransaction_movesLeft
  case wCmd | wData =>
    right
    simp only [State.tick, hp, State.movesLeft, State.payloadOrEnd_transactionMovesLeft]
    simp [State.transactionMovesLeft, hp, State.payloadOrEnd]
  all_goals
    right
    simp [State.tick, hp, State.movesLeft, State.transactionMovesLeft]

theorem State.movesLeft_pos (s : State) : 0 < s.movesLeft := by
  unfold State.movesLeft State.transactionMovesLeft payloadMovesLeft
  split <;> omega

theorem State.run_settles {s : State} {k : Nat} (h : s.movesLeft ≤ k) : (State.run k s).Settled := by
  induction k generalizing s with
  | zero => exact absurd h (Nat.not_le.mpr s.movesLeft_pos)
  | succ k ih =>
    cases hr : s.running
    · rwa [State.run_of_not_running hr]
    · rw [State.run_succ hr]
      obtain hb | hlt := s.tick_movesLeft
      · rw [State.run_of_not_running (State.not_running_of_idle hb)]
        exact State.not_running_of_idle hb
      · exact ih (by omega)

theorem State.resume_settled (s : State) : s.resume.Settled := State.run_settles s.movesLeft_le_moveBound

theorem State.settled_iff {s : State} : s.Settled ↔ s.busy = false ∨ s.held = true := by
  unfold State.Settled State.running State.held
  cases s.busy <;> simp

/-- Settles O40: the bound on moves covers what any block has left. -/
theorem resumeEndsIdleOrHeld : Obligations.ResumeEndsIdleOrHeld :=
  fun s => State.settled_iff.mp s.resume_settled

/-- More moves than the bound change nothing. -/
theorem State.run_resume (s : State) (k : Nat) : State.run (k + moveBound) s = s.resume := by
  rw [Nat.add_comm, State.run_add]
  exact State.run_of_not_running s.resume_settled k

/-! ## Held blocks -/

theorem State.not_running_of_held {s : State} (h : s.held = true) : s.running = false :=
  State.settled_iff.mpr (.inr h)

theorem State.held_iff (s : State) : s.held = true ↔ s.busy = true ∧ s.transport.credit = some 0 ∧ s.awaitsTransport = true := by
  simp only [State.held, Bool.and_eq_true, beq_iff_eq, and_assoc, and_comm (a := s.awaitsTransport = true)]

/-- Settles O39: a held block has no move of its own and takes no descriptor; its phase says whether a scope is open. -/
theorem heldBlockWaitsForTheTransport : Obligations.HeldBlockWaitsForTheTransport := by
  refine ⟨fun s => ?_, fun s h hin => ?_, fun s d rest h hin => ?_, fun s hinv h => ?_⟩
  · rw [s.held_iff, State.awaitsTransport]
    cases s.ph <;> simp
  · rw [step_of_no_input hin, State.resume_of_not_running (State.not_running_of_held h)]
  · exact step_present_busy (s.held_iff.mp h).1 hin
  · obtain ⟨-, -, hw⟩ := s.held_iff.mp h
    rw [hinv.scopes.1]
    unfold State.awaitsTransport at hw
    cases hp : s.ph <;> simp [hp, Phase.selected] at hw ⊢

/-! ## Going on under another Transport -/

/-- The same block with a Transport that completes everything, other moves of its surroundings still to come. -/
def State.freed (s : State) (l : List Input) : State :=
  { s with inputs := l, transport := { s.transport with credit := none } }

section
variable (s : State) (l : List Input)

theorem State.takeTransport_none : s.takeTransport none = (s.freed s.inputs).resume := rfl

theorem State.freed_delay (n : Nat) : (s.freed l).delay n = (s.delay n).freed l := by
  unfold State.delay
  split <;> rfl

theorem State.freed_checkAck (k : Byte) (m : MismatchPhase) : (s.freed l).checkAck k m = (s.checkAck k m).freed l := by
  have hrx : (s.freed l).rx = s.rx := rfl
  unfold State.checkAck
  rw [hrx]
  split <;> rfl

theorem State.freed_finish : (s.freed l).finish = s.finish.freed l := by
  have hop : (s.freed l).opcode = s.opcode := rfl
  unfold State.finish State.deliverResult
  rw [hop]
  split <;> rfl

theorem State.freed_currentFrame : (s.freed l).currentFrame = s.currentFrame := by
  have hop : (s.freed l).opcode = s.opcode := rfl
  have hfr (o : Opcode) : (s.freed l).frames o = s.frames o := by cases o <;> rfl
  unfold State.currentFrame
  rw [hop]
  split
  · rw [hfr]; rfl
  · rfl

theorem State.freed_beginTransaction : (s.freed l).beginTransaction = s.beginTransaction.freed l := by
  have hcf := s.freed_currentFrame l
  cases hf : s.currentFrame with
  | none => rw [State.beginTransaction_none hf, State.beginTransaction_none (hcf.trans hf), s.freed_finish]
  | some f =>
    rw [State.beginTransaction_some hf, State.beginTransaction_some (hcf.trans hf)]
    rfl

theorem State.freed_collect : (s.freed l).collect = s.collect.freed l := by
  have hop : (s.freed l).opcode = s.opcode := rfl
  have hm : (s.freed l).mstep = s.mstep := rfl
  unfold State.collect
  rw [hop, hm]
  repeat' split
  all_goals rfl

theorem State.freed_nextTransaction : (s.freed l).nextTransaction = s.nextTransaction.freed l := by
  unfold State.nextTransaction
  rw [s.freed_collect]
  exact State.freed_beginTransaction { s.collect with mstep := s.mstep + 1 } l

theorem State.freed_exchangePayload : (s.freed l).exchangePayload = s.exchangePayload.freed l := by
  have hr : (s.freed l).reads = s.reads := rfl
  unfold State.exchangePayload
  rw [hr]
  split <;> rfl

/-- A move does not depend on what the Transport will complete (R17). -/
theorem State.freed_tick : (s.freed l).tick = s.tick.freed l := by
  have hph : (s.freed l).ph = s.ph := rfl
  have hcfg : (s.freed l).cfg = s.cfg := rfl
  cases hp : s.ph <;> simp only [State.tick, hph, hp, hcfg, State.freed_delay]
  case idle => exact s.freed_beginTransaction l
  case addr => exact congrArg (fun t => { t with ph := .wAddr }) ((s.xchg s.a).freed_checkAck l s.cfg.addrAck .address)
  case cmd => exact congrArg (fun t => { t with ph := .wCmd }) ((s.xchg s.c).freed_checkAck l s.cfg.cmdAck .control)
  case data => exact congrArg (fun t => { t with ph := .wData }) (s.freed_exchangePayload l)
  case wDesel => exact State.freed_nextTransaction _ l
  all_goals rfl

/-- A run that may be held is a beginning of the run that is not. -/
theorem State.run_freed (k : Nat) : ∃ j, State.run j (s.freed l) = (State.run k s).freed l := by
  induction k generalizing s with
  | zero => exact ⟨0, rfl⟩
  | succ k ih =>
    cases hr : s.running
    · exact ⟨0, by rw [State.run_of_not_running hr]; rfl⟩
    · obtain ⟨j, hj⟩ := ih s.tick
      have hb : (s.freed l).busy = true := (Bool.and_eq_true_iff.mp hr).1
      exact ⟨j + 1, by rw [State.run_succ hr, State.run_move hb rfl, s.freed_tick, hj]⟩

/-- Holding an operation first and then letting it go on ends where letting it go on ends. -/
theorem State.resume_freed_resume : (s.resume.freed l).resume = (s.freed l).resume := by
  obtain ⟨j, hj⟩ := s.run_freed l moveBound
  rw [State.resume, State.resume, ← hj, ← State.run_add]
  exact State.run_resume (s.freed l) j

end

/-- Settles O41: the operation goes on from the hold as it would have gone on without one. -/
theorem holdThenGoOnIsNoHold : Obligations.HoldThenGoOnIsNoHold := by
  intro s t u i ht hu
  obtain rfl := exec_next ht
  obtain rfl := exec_next hu
  have hin : (s.loaded i).resume.inputs = s.inputs := by
    refine (s.loaded i).resume_sameOperands.inputs.trans ?_
    cases i <;> rfl
  have hload : State.loaded { s with transport := { s.transport with credit := none } } i = (s.loaded i).freed s.inputs := by
    cases i <;> rfl
  rw [State.takeTransport_none, hin, State.resume_freed_resume, hload]

end Sys2Proof.Machine
end

section
/-! PROOF. The history and the counter (10_state.md R14, R18): every move appends events to the link trace and counts the failed checks
among them, nothing else. -/

namespace Sys2Proof.Machine

/-- From `s` to `t` the events `x` were appended to the history and their failed checks counted. -/
structure Follows (s t : State) (x : List LinkEvent) : Prop where
  trace : t.trace = s.trace ++ x
  expected : t.expected = expectedAfter s.expected x
  cfg : t.cfg = s.cfg
  errcnt : s.ErrcntInRange → t.errcnt = (s.errcnt + failedChecks s.cfg s.expected x) % 2 ^ s.cfg.errcntW

theorem Follows.errcntInRange {s t : State} {x : List LinkEvent} (h : Follows s t x) (hs : s.ErrcntInRange) : t.ErrcntInRange := by
  rw [State.ErrcntInRange, h.cfg, h.errcnt hs]
  exact Nat.mod_lt _ (Nat.two_pow_pos _)

/-- Nothing happened on the link, and the counter is as it was. -/
theorem Follows.quiet {s t : State} (htrace : t.trace = s.trace) (hexp : t.expected = s.expected) (hcfg : t.cfg = s.cfg)
    (herr : t.errcnt = s.errcnt) : Follows s t [] where
  trace := by simpa using htrace
  expected := by simpa [expectedAfter] using hexp
  cfg := hcfg
  errcnt hs := by simp [failedChecks, herr, Nat.mod_eq_of_lt hs]

theorem Follows.trans {s t u : State} {x y : List LinkEvent} (h : Follows s t x) (h' : Follows t u y) : Follows s u (x ++ y) where
  trace := by rw [h'.trace, h.trace, List.append_assoc]
  expected := by rw [h'.expected, h.expected, expectedAfter_append]
  cfg := h'.cfg.trans h.cfg
  errcnt hs := by
    rw [h'.errcnt (h.errcntInRange hs), h.errcnt hs, h.cfg, h.expected, failedChecks_append, Nat.mod_add_mod, Nat.add_assoc]

/-- The start of a transaction and the end of the operation put nothing on the link; a check is expected after neither. -/
theorem State.beginTransaction_follows {s : State} (h : s.ph.expected = .nothing) : Follows s s.beginTransaction [] := by
  have hs : s.expected = .nothing := by simp [State.expected, h]
  cases hf : s.currentFrame with
  | none =>
    rw [State.beginTransaction_none hf]
    obtain ⟨trace, errcnt, -, -⟩ := s.deliverResult_rest
    exact .quiet trace hs.symm s.finish_sameOperands.cfg errcnt
  | some f =>
    rw [State.beginTransaction_some hf]
    refine .quiet rfl ?_ rfl rfl
    rw [hs]
    exact ite_self _

theorem State.delay_follows (s : State) (n : Nat) : Follows s (s.delay n) (slot n) where
  trace := s.delay_trace n
  expected := by simp [State.expected]
  cfg := s.delay_cfg n
  errcnt hs := by simp [Nat.mod_eq_of_lt hs]

theorem State.nextTransaction_follows {s : State} (h : s.ph.expected = .nothing) : Follows s s.nextTransaction [] := by
  obtain ⟨trace, errcnt, -⟩ := s.collect_rest
  have hph : s.collect.ph = s.ph := by
    unfold State.collect
    repeat' split
    all_goals rfl
  have hcollect : Follows s { s.collect with mstep := s.mstep + 1 } [] :=
    .quiet trace (by simp [State.expected, hph, h]) s.collect_sameOperands.cfg errcnt
  exact hcollect.trans (State.beginTransaction_follows (s := { s.collect with mstep := s.mstep + 1 }) (by simpa [hph] using h))

/-- Where the payload is under way no check is expected (R78). -/
theorem State.payloadOrEnd_expected (s : State) : s.payloadOrEnd.expected = .nothing := by
  by_cases h : s.i < s.n <;> simp [State.expected, State.payloadOrEnd, h, Phase.expected]

/-- What one move of an operation in progress appends. -/
def State.tickEvents (s : State) : List LinkEvent :=
  match s.ph with
  | .idle => []
  | .select => [.sel]
  | .wSel => slot s.cfg.tSel
  | .addr => [.x s.a s.transport.next]
  | .wAddr => slot s.cfg.tAddr
  | .cmd => [.x s.c s.transport.next]
  | .wCmd => slot s.cfg.tCmd
  | .data => [.x (if s.reads then filler else s.dbuf.read s.i.toNat) s.transport.next]
  | .wData => slot s.cfg.tData
  | .deselect => [.desel]
  | .wDesel => slot s.cfg.tDesel

theorem State.tick_follows {s : State} (hb : s.busy = true) : Follows s s.tick s.tickEvents := by
  have he : s.expected = s.ph.expected := by simp [State.expected, hb]
  cases hp : s.ph
  case idle =>
    simp only [State.tick, State.tickEvents, hp]
    exact s.beginTransaction_follows (by rw [hp]; rfl)
  case wDesel =>
    simp only [State.tick, State.tickEvents, hp]
    simpa using (s.delay_follows s.cfg.tDesel).trans
      (State.nextTransaction_follows (s := s.delay s.cfg.tDesel) (by rw [State.delay_ph, hp]; rfl))
  case addr | cmd =>
    refine ⟨by simp [State.tick, State.tickEvents, hp], ?_, by simp [State.tick, hp], fun hs => ?_⟩
    · simp [State.tick, State.tickEvents, hp, State.expected, hb, Phase.expected, expectedAfter]
    · simp only [he, State.tick, State.tickEvents, hp, Phase.expected, failedChecks, State.checkAck_errcnt, State.xchg_rx,
        State.xchg_errcnt, State.xchg_cfg]
      split <;> simp [*, Nat.mod_eq_of_lt hs]
  case wCmd | wData =>
    refine ⟨by simp [State.tick, State.tickEvents, hp], ?_, by simp [State.tick, hp], fun hs => ?_⟩
    · simp only [he, State.tick, State.tickEvents, hp, Phase.expected, State.payloadOrEnd_expected, expectedAfter_slot]
    · simp [State.tick, State.tickEvents, hp, Nat.mod_eq_of_lt hs]
  all_goals
    refine ⟨by simp [State.tick, State.tickEvents, hp], ?_, by simp [State.tick, hp], fun hs => ?_⟩
    · simp [State.tick, State.tickEvents, hp, State.expected, hb, Phase.expected, expectedAfter]
    · simp [he, State.tick, State.tickEvents, hp, Phase.expected, failedChecks, Nat.mod_eq_of_lt hs]

theorem State.run_follows (s : State) (k : Nat) : ∃ x, Follows s (State.run k s) x :=
  State.run_keeps (P := fun t => ∃ x, Follows s t x)
    (fun t hr ⟨x, hx⟩ => ⟨x ++ t.tickEvents, hx.trans (State.tick_follows (Bool.and_eq_true_iff.mp hr).1)⟩)
    ⟨[], .quiet rfl rfl rfl rfl⟩ k

theorem State.resume_follows (s : State) : ∃ x, Follows s s.resume x := s.run_follows moveBound

theorem State.loaded_follows {s : State} (hb : s.busy = false) (i : Instr) : Follows s (s.loaded i) [] := by
  obtain ⟨-, -, hph, -, -, herr, -, -, htrace, -, -, hcfg⟩ := s.loaded_fields i
  refine .quiet htrace ?_ hcfg herr
  simp [State.expected, hb, hph, Phase.expected]

/-- What a step but reset does to history and counter. -/
theorem step_follows {s t : State} (hr : s.inputs.head? ≠ some .reset) (h : step s = .next t) : ∃ x, Follows s t x := by
  obtain ⟨hreset, -⟩ | ⟨c, rfl⟩ | ⟨-, rfl⟩ | ⟨-, rfl⟩ | ⟨hb, i, rfl⟩ := step_cases h
  · exact absurd hreset hr
  · obtain ⟨x, hx⟩ := State.resume_follows { s.consumeInput with transport := { s.transport with credit := c } }
    exact ⟨x, hx.trace, hx.expected, hx.cfg, hx.errcnt⟩
  · exact ⟨[], .quiet rfl rfl rfl rfl⟩
  · exact ⟨[], .quiet rfl rfl rfl rfl⟩
  · obtain ⟨x, hx⟩ := (s.consumeInput.loaded i).resume_follows
    have hx' := (State.loaded_follows (s := s.consumeInput) hb i).trans hx
    exact ⟨[] ++ x, hx'.trace, hx'.expected, hx'.cfg, hx'.errcnt⟩

/-- Settles O30: each move counts the check of the exchange it appends. -/
theorem onlyResetClearsTheCounter : Obligations.OnlyResetClearsTheCounter := by
  intro s t hs hr h
  obtain ⟨x, hx⟩ := step_follows hr h
  exact ⟨x, hx.trace, hx.errcnt hs⟩

/-- Settles O48: each move only appends. -/
theorem traceOnlyGrows : Obligations.TraceOnlyGrows := by
  intro s t hr h
  obtain ⟨x, hx⟩ := step_follows hr h
  exact ⟨x, hx.trace.symm⟩

end Sys2Proof.Machine
end

section
/-! PROOF. The invariant of the machine (10_state.md R12, R14, R15, R17, R176): between transactions no scope is open; a transaction
opens one and closes it. -/

namespace Sys2Proof.Machine

/-- The scope discipline of a trace is that of its beginning and then that of the rest. -/
theorem scopeAfter_append (b : Bool) (x y : List LinkEvent) :
    scopeAfter b (x ++ y) = (scopeAfter b x).bind fun b' => scopeAfter b' y := by
  induction x generalizing b with
  | nil => rfl
  | cons e x ih => cases e <;> cases b <;> simp [scopeAfter, ih]

@[simp] theorem scopeAfter_slot (b : Bool) (n : Nat) : scopeAfter b (slot n) = some b := by
  unfold slot
  split <;> rfl

/-- The invariant but for where an operation may stop: what holds of a block on its way too. -/
structure State.Sound (s : State) : Prop where
  params : s.cfg.wf = true
  buffers : s.BuffersCanonical
  errcnt : s.ErrcntInRange
  position : s.PositionSound
  scopes : s.ScopesSound

/-- A block before a transaction of an operation, or before its end: no scope is open. -/
structure State.SoundBetween (s : State) : Prop where
  params : s.cfg.wf = true
  buffers : s.BuffersCanonical
  errcnt : s.ErrcntInRange
  opcode : s.opcode ≠ none
  selline : s.selline = false
  scopes : scopeAfter false s.trace = some false

theorem State.inv_iff {s : State} : s.Inv ↔ s.Sound ∧ s.Settled :=
  ⟨fun ⟨params, buffers, errcnt, position, scopes, settled⟩ => ⟨⟨params, buffers, errcnt, position, scopes⟩, settled⟩,
    fun ⟨⟨params, buffers, errcnt, position, scopes⟩, settled⟩ => ⟨params, buffers, errcnt, position, scopes, settled⟩⟩

/-- Settles O45: each part is computed at the reset state. -/
theorem resetIsSound : Obligations.ResetIsSound :=
  ⟨by decide, State.reset_buffersCanonical, by decide, by decide, by decide, by decide⟩

/-! ## From one transaction to the next -/

theorem State.finish_rbuf_wf {s : State} (h : s.rbuf.wf = true) : s.finish.rbuf.wf = true := by
  unfold State.finish State.deliverResult
  dsimp only
  split
  case h_6 => exact h
  all_goals exact State.deliver_rbuf_wf _ _

theorem State.SoundBetween.finish {s : State} (h : s.SoundBetween) : s.finish.Sound := by
  obtain ⟨trace, errcnt, -, selline⟩ := s.deliverResult_rest
  have hcfg : s.finish.cfg = s.cfg := s.finish_sameOperands.cfg
  have htrace : s.finish.trace = s.trace := trace
  have herr : s.finish.errcnt = s.errcnt := errcnt
  have hsel : s.finish.selline = false := selline.trans h.selline
  refine ⟨hcfg ▸ h.params, ⟨s.finish_dbuf ▸ h.buffers.1, State.finish_rbuf_wf h.buffers.2⟩, ?_,
    ⟨fun _ => ⟨rfl, rfl, rfl⟩, nofun, nofun⟩, hsel, ?_⟩
  · rw [State.ErrcntInRange, herr, hcfg]
    exact h.errcnt
  · rw [htrace, hsel]
    exact h.scopes

theorem State.SoundBetween.begun {s : State} (h : s.SoundBetween) (hb : s.busy = true) (f : Frame) : (s.begun f).Sound :=
  ⟨h.params, ⟨State.begun_dbuf_wf f h.buffers.1, h.buffers.2⟩, h.errcnt,
    ⟨fun hidle => absurd (hb.symm.trans hidle) nofun, fun _ => ⟨nofun, h.opcode⟩, nofun⟩, h.selline,
    h.scopes.trans (congrArg some h.selline.symm)⟩

theorem State.SoundBetween.beginTransaction {s : State} (h : s.SoundBetween) (hb : s.busy = true) :
    s.beginTransaction.Sound := by
  cases hf : s.currentFrame with
  | none => exact State.beginTransaction_none hf ▸ h.finish
  | some f => exact State.beginTransaction_some hf ▸ h.begun hb f

theorem State.SoundBetween.nextTransaction {s : State} (h : s.SoundBetween) (hb : s.busy = true) : s.nextTransaction.Sound := by
  obtain ⟨trace, errcnt, -, selline, -⟩ := s.collect_rest
  have hc := s.collect_sameBlock
  have hnext : State.SoundBetween { s.collect with mstep := s.mstep + 1 } := by
    refine ⟨hc.cfg ▸ h.params, ⟨s.collect_dbuf ▸ h.buffers.1, hc.rbuf ▸ h.buffers.2⟩, ?_, State.opcode_congr hc.op ▸ h.opcode,
      selline.trans h.selline, trace ▸ h.scopes⟩
    simpa only [State.ErrcntInRange, errcnt, hc.cfg] using h.errcnt
  exact hnext.beginTransaction (hc.busy.trans hb)

/-! ## One move -/

theorem State.payloadOrEnd_selected (s : State) : s.payloadOrEnd.ph.selected = true := by
  by_cases h : s.i < s.n <;> simp [State.payloadOrEnd, h, Phase.selected]

theorem State.payloadOrEnd_index (s : State) (h : s.payloadOrEnd.ph = .data ∨ s.payloadOrEnd.ph = .wData) :
    s.payloadOrEnd.i < s.payloadOrEnd.n := by
  by_cases hi : s.i < s.n
  · exact hi
  · simp [State.payloadOrEnd, hi] at h

theorem State.tick_scopesSound {s : State} (h : s.ScopesSound) (h0 : s.ph ≠ .idle) (h1 : s.ph ≠ .wDesel) :
    s.tick.ScopesSound := by
  obtain ⟨hsel, hscope⟩ := h
  cases hp : s.ph
  case idle => exact absurd hp h0
  case wDesel => exact absurd hp h1
  case wCmd | wData =>
    rw [hp] at hsel
    simp only [State.tick, hp]
    refine ⟨?_, ?_⟩
    · rw [State.payloadOrEnd_selected]
      simp [hsel, Phase.selected]
    · simp [scopeAfter_append, hscope]
  all_goals
    rw [hp] at hsel
    simp [State.ScopesSound, State.tick, hp, scopeAfter_append, hscope, hsel, Phase.selected, scopeAfter]

theorem State.tick_index {s : State} (h0 : s.ph ≠ .idle) (h1 : s.ph ≠ .wDesel) (h : s.ph = .data → s.i < s.n) :
    s.tick.ph = .data ∨ s.tick.ph = .wData → s.tick.i < s.tick.n := by
  cases hp : s.ph
  case idle => exact absurd hp h0
  case wDesel => exact absurd hp h1
  case data => simpa [State.tick, hp] using h hp
  case wCmd | wData =>
    simp only [State.tick, hp]
    exact State.payloadOrEnd_index _
  all_goals simp [State.tick, hp]

/-- A move within a transaction keeps the transaction sound. -/
theorem State.Sound.tick_within {s : State} (h : s.Sound) (hb : s.busy = true) (h1 : s.ph ≠ .wDesel) : s.tick.Sound := by
  obtain ⟨-, hbusy, hindex⟩ := h.position
  obtain ⟨h0, hop⟩ := hbusy hb
  have hl := State.tick_sameLatches h0 h1
  have hph : s.tick.ph ≠ .idle := by
    cases hp : s.ph
    case idle => exact absurd hp h0
    case wDesel => exact absurd hp h1
    all_goals simp [State.tick, hp, State.payloadOrEnd, ite_eq_iff]
  exact ⟨hl.cfg ▸ h.params, ⟨hl.dbuf ▸ h.buffers.1, hl.rbuf ▸ h.buffers.2⟩, (State.tick_follows hb).errcntInRange h.errcnt,
    ⟨fun hidle => absurd (hb.symm.trans (hl.busy.symm.trans hidle)) nofun, fun _ => ⟨hph, State.opcode_congr hl.op ▸ hop⟩,
      State.tick_index h0 h1 fun hp => hindex (.inl hp)⟩,
    State.tick_scopesSound h.scopes h0 h1⟩

theorem State.Sound.tick {s : State} (h : s.Sound) (hb : s.busy = true) : s.tick.Sound := by
  obtain ⟨-, hbusy, -⟩ := h.position
  by_cases h1 : s.ph = .wDesel
  · have hsel : s.selline = false := by rw [h.scopes.1, h1]; rfl
    have hd := s.delay_follows s.cfg.tDesel
    have hbetween : (s.delay s.cfg.tDesel).SoundBetween :=
      ⟨by simpa using h.params, ⟨by simpa using h.buffers.1, by simpa using h.buffers.2⟩, hd.errcntInRange h.errcnt,
        State.opcode_congr (s.delay_op _) ▸ (hbusy hb).2, by simpa using hsel,
        by simp [scopeAfter_append, h.scopes.2, hsel]⟩
    simp only [State.tick, h1]
    exact hbetween.nextTransaction (by simpa using hb)
  · exact h.tick_within hb h1

/-! ## One step -/

theorem State.Sound.run {s : State} (h : s.Sound) (k : Nat) : (State.run k s).Sound :=
  State.run_keeps (fun _ hr ht => ht.tick (Bool.and_eq_true_iff.mp hr).1) h k

theorem State.Sound.resume_inv {s : State} (h : s.Sound) : s.resume.Inv := State.inv_iff.mpr ⟨h.run _, s.resume_settled⟩

/-- An idle sound block that has accepted an operation begins its first transaction. -/
theorem State.Sound.loaded {s : State} (h : s.Sound) (hb : s.busy = false) (i : Instr) : (s.loaded i).SoundBetween := by
  obtain ⟨-, -, hph, -, -, herr, hrbuf, -, htrace, -, -, hcfg⟩ := s.loaded_fields i
  obtain ⟨hidle, -, -⟩ := h.position
  obtain ⟨-, hsph, -⟩ := hidle hb
  have hsel : s.selline = false := by
    rw [h.scopes.1, hsph]
    rfl
  have hlsel : (s.loaded i).selline = s.selline := by cases i <;> rfl
  refine ⟨hcfg ▸ h.params, ⟨?_, hrbuf ▸ h.buffers.2⟩, ?_, ?_, hlsel.trans hsel, ?_⟩
  · rw [s.loaded_dbuf]
    exact Memory.load_wf h.buffers.1
  · simpa only [State.ErrcntInRange, herr, hcfg] using h.errcnt
  · rw [s.loaded_opcode]
    nofun
  · rw [htrace, h.scopes.2, hsel]

/-- Settles O46: every move keeps the block sound, and a run of moves ends idle or held. -/
theorem everyStepKeepsTheInvariant : Obligations.EveryStepKeepsTheInvariant := by
  intro s t hinv h
  obtain ⟨hs, hsettled⟩ := State.inv_iff.mp hinv
  obtain ⟨-, rfl⟩ | ⟨c, rfl⟩ | ⟨-, rfl⟩ | ⟨hb, rfl⟩ | ⟨hb, i, rfl⟩ := step_cases h
  · exact ⟨hs.params, ⟨Memory.wf_nil, Memory.wf_nil⟩, Nat.two_pow_pos _, ⟨fun _ => ⟨rfl, rfl, rfl⟩, nofun, nofun⟩,
      ⟨rfl, rfl⟩, rfl⟩
  · exact State.Sound.resume_inv ⟨hs.params, hs.buffers, hs.errcnt, hs.position, hs.scopes⟩
  · exact ⟨hs.params, hs.buffers, hs.errcnt, hs.position, hs.scopes, hsettled⟩
  · exact ⟨hs.params, hs.buffers, hs.errcnt, hs.position, hs.scopes, hsettled⟩
  · have hc : s.consumeInput.Sound := ⟨hs.params, hs.buffers, hs.errcnt, hs.position, hs.scopes⟩
    obtain ⟨-, -, hph, hbusy, -⟩ := s.consumeInput.loaded_fields i
    have hstart := (hc.loaded hb i).beginTransaction hbusy
    refine State.inv_iff.mpr ⟨?_, State.resume_settled _⟩
    rw [State.resume_of_idle hbusy hph]
    exact hstart.run _

end Sys2Proof.Machine
end

section
/-! PROOF. Whole operations that are never held (40_register_access.md R72 to R75, 42_channel_encoder.md R110 to R117): every operation
but RDMSG has its frames from acceptance on, and they form a chain. -/

namespace Sys2Proof.Machine

/-! ## The chain of an operation -/

/-- What a transaction of an operation sends: fillers, its own byte, or the staged payload (R51, R81). -/
def sentBy (i : Instr) (f : Frame) : List Byte :=
  if opcodeReads i.opcode then List.replicate f.count.toNat filler else f.data.elim i.staged fun v => [v]

/-- The transactions of an accepted operation with their payloads. -/
def State.operation (s : State) (i : Instr) : List (Frame × List Byte) :=
  ((s.loaded i).frames i.opcode).map fun f => (f, sentBy i f)

/-- A transaction leaves the operation's frames as they are, where the operation is not RDMSG. -/
theorem State.afterTransaction_frames {s : State} {o : Opcode} (ho : s.opcode = some o) (hne : o ≠ .rdmsg) {f : Frame}
    (hf : s.currentFrame = some f) (sent : List Byte) : (s.afterTransaction f sent).frames o = s.frames o := by
  have hcollect : ((s.begun f).frameDone sent).collect = (s.begun f).frameDone sent :=
    State.collect_of_not_rdmsg fun h => hne (Option.some.inj (ho.symm.trans h))
  rw [← State.begun_frames ((State.currentFrame_of_opcode ho).symm.trans hf), State.afterTransaction, hcollect]
  cases o <;> rfl

/-- In a write only the first transaction sends DBUF as it stands. -/
theorem State.frames_tail_data {s : State} {o : Opcode} (h : opcodeReads o = false) {f : Frame} (hf : f ∈ (s.frames o).tail) :
    f.data ≠ none := by
  revert f
  cases o
  case rdreg | rdblk | rdmsg | lastch => contradiction
  all_goals
    simp [State.frames, State.disableFrames, State.configureFrames, State.registerFrames, modeRow, Frame.single]

theorem State.payloadOf_data {s : State} {o : Opcode} (ho : s.opcode = some o) (hw : opcodeReads o = false)
    (hd : s.dbuf.wf = true) {f : Frame} (hf : f ∈ s.frames o) {v : Byte} (hv : f.data = some v) : s.PayloadOf f [v] := by
  have hcount : f.count = 1 := State.frames_single hf (by simp [hv])
  have hsingle : f = .single f.addr v := by
    obtain ⟨a, n, d⟩ := f
    simp only at hcount hv
    rw [hcount, hv]
    rfl
  rw [hsingle]
  exact State.payloadOf_single ((State.reads_of_opcode ho).trans hw) hd _ v

/-- A transaction that reads, or carries its own byte, sends what it sends whatever DBUF holds. -/
theorem State.payloadOf_sentBy {s : State} {i : Instr} (ho : s.opcode = some i.opcode) (hd : s.dbuf.wf = true) {f : Frame}
    (hf : f ∈ s.frames i.opcode) (h : opcodeReads i.opcode = true ∨ f.data ≠ none) : s.PayloadOf f (sentBy i f) := by
  unfold sentBy
  split
  next hr => exact State.payloadOf_read ((State.reads_of_opcode ho).trans hr) f
  next hw =>
    obtain ⟨v, hv⟩ := Option.ne_none_iff_exists'.mp (h.resolve_left hw)
    rw [hv]
    exact State.payloadOf_data ho (Bool.not_eq_true _ ▸ hw) hd hf hv

theorem State.afterTransaction_dbuf_wf {s : State} (f : Frame) (sent : List Byte) (h : s.dbuf.wf = true) :
    (s.afterTransaction f sent).dbuf.wf = true := by
  rw [State.afterTransaction_dbuf]
  exact State.begun_dbuf_wf f h

/-- The rest of an operation, from a transaction on after which none sends DBUF as it stands. -/
theorem Chain.exists_rest {s : State} {i : Instr} (ho : s.opcode = some i.opcode) (hne : i.opcode ≠ .rdmsg)
    (hd : s.dbuf.wf = true) {done rest : List Frame} (hfr : s.frames i.opcode = done ++ rest) (hm : s.mstep = done.length)
    (hrest : ∀ f ∈ rest, opcodeReads i.opcode = true ∨ f.data ≠ none) :
    ∃ t, Chain s (rest.map fun f => (f, sentBy i f)) t ∧ t.currentFrame = none := by
  induction rest generalizing s done with
  | nil =>
    refine ⟨s, .nil s, ?_⟩
    rw [State.currentFrame_of_opcode ho, hfr, hm]
    simp
  | cons f fs ih =>
    have hcur : s.currentFrame = some f := by
      rw [State.currentFrame_of_opcode ho, hfr, hm]
      simp
    have hmem : f ∈ s.frames i.opcode := hfr ▸ List.mem_append_right _ List.mem_cons_self
    have hpay := State.payloadOf_sentBy ho hd hmem (hrest f List.mem_cons_self)
    obtain ⟨t, ht, hend⟩ := ih (s := s.afterTransaction f (sentBy i f)) (done := done ++ [f]) (by simpa using ho)
      (State.afterTransaction_dbuf_wf f _ hd) (by rw [State.afterTransaction_frames ho hne hcur, hfr]; simp) (by simp [hm])
      fun g hg => hrest g (List.mem_cons_of_mem _ hg)
    exact ⟨t, .cons hcur hpay ht, hend⟩

/-- The first transaction of an operation sends the staged payload where it does not carry its own byte. -/
theorem State.loaded_payloadOf {s : State} {i : Instr} (hd : s.dbuf.wf = true) (hi : i.wf = true) {f : Frame}
    (hf : f ∈ (s.loaded i).frames i.opcode) : (s.loaded i).PayloadOf f (sentBy i f) := by
  have ho := s.loaded_opcode i
  have hwf : (s.loaded i).dbuf.wf = true := s.loaded_dbuf i ▸ Memory.load_wf hd
  by_cases h : opcodeReads i.opcode = true ∨ f.data ≠ none
  · exact State.payloadOf_sentBy ho hwf hf h
  · obtain ⟨hw, hdata⟩ : opcodeReads i.opcode = false ∧ f.data = none := by simpa using h
    have hl := Instr.staged_length hi
    have hcount := s.loaded_blockCount hw f hf hdata
    have hsent : sentBy i f = i.staged := by simp [sentBy, hw, hdata]
    obtain ⟨a, n, data⟩ := f
    obtain rfl : data = none := hdata
    rw [hsent]
    refine State.payloadOf_block ((State.reads_of_opcode ho).trans hw) a n ?_ fun k b hk => ?_
    · rw [show n = countByte i.staged from hcount, Laws.countByte_toNat hl]
    · rw [s.loaded_dbuf, Memory.read_load hd hl, hk]
      rfl

/-- Every operation but RDMSG is the chain of its frames. -/
theorem Chain.exists_operation {s : State} {i : Instr} (hd : s.dbuf.wf = true) (hi : i.wf = true) (hne : i.opcode ≠ .rdmsg) :
    ∃ t, Chain (s.loaded i) (s.operation i) t ∧ t.currentFrame = none := by
  have ho := s.loaded_opcode i
  have hwf : (s.loaded i).dbuf.wf = true := s.loaded_dbuf i ▸ Memory.load_wf hd
  obtain ⟨-, hm, -⟩ := s.loaded_fields i
  unfold State.operation
  cases hfr : (s.loaded i).frames i.opcode with
  | nil => exact ⟨_, .nil _, by rw [State.currentFrame_of_opcode ho, hfr]; rfl⟩
  | cons f fs =>
    have hcur : (s.loaded i).currentFrame = some f := by
      rw [State.currentFrame_of_opcode ho, hfr, hm]
      rfl
    have hpay := State.loaded_payloadOf hd hi (hfr ▸ List.mem_cons_self)
    have hrest : ∀ g ∈ fs, opcodeReads i.opcode = true ∨ g.data ≠ none := fun g hg => by
      cases hr : opcodeReads i.opcode
      · exact .inr (State.frames_tail_data (s := s.loaded i) hr (hfr ▸ hg))
      · exact .inl rfl
    obtain ⟨t, ht, hend⟩ := Chain.exists_rest (s := (s.loaded i).afterTransaction f (sentBy i f)) (done := [f]) (rest := fs)
      (by simpa using ho) hne (State.afterTransaction_dbuf_wf f _ hwf)
      (by rw [State.afterTransaction_frames ho hne hcur, hfr, List.singleton_append]) (by simp [hm]) hrest
    exact ⟨t, .cons hcur hpay ht, hend⟩

/-- The longest operation has one frame of 255 bytes and four of one. -/
theorem State.operation_moves (s : State) {i : Instr} (hi : i.wf = true) (hne : i.opcode ≠ .rdmsg) :
    chainMoves (s.operation i) < moveBound := by
  have hl := Instr.staged_length hi
  cases i
  case rdmsg => exact absurd rfl hne
  case rdblk a n =>
    have hn := n.isLt
    simp only [State.operation, State.loaded, State.frames, Instr.opcode, sentBy, opcodeReads, chainMoves, moveBound, List.map_cons,
      List.map_nil, if_true, List.length_replicate, Frame.block]
    omega
  all_goals
    simp [State.operation, State.loaded, State.frames, Instr.opcode, sentBy, opcodeReads, chainMoves, moveBound,
      State.disableFrames, State.configureFrames, State.stagingFrame, State.registerFrames, modeRow, Frame.single, Frame.block]
      <;> omega

end Sys2Proof.Machine
end

section
/-! PROOF. What each operation does from every ready state (40_register_access.md R72 to R75, 42_channel_encoder.md R110 to R117,
43_message_ingest.md R132, 44_status_ops.md R140). -/

namespace Sys2Proof.Machine

/-! ## From a chain to the operation performed -/

theorem State.loaded_selline_inputs {s : State} (i : Instr) : (s.loaded i).selline = s.selline ∧ (s.loaded i).inputs = s.inputs := by
  cases i <;> exact ⟨rfl, rfl⟩

theorem State.loaded_controlByte (s : State) (i : Instr) :
    (s.loaded i).controlByte = if opcodeReads i.opcode then s.cfg.cmdRead else s.cfg.cmdWrite := by
  obtain ⟨-, -, -, -, -, -, -, -, -, -, -, hcfg⟩ := s.loaded_fields i
  rw [State.controlByte, State.reads_of_opcode (s.loaded_opcode i), hcfg]

theorem State.Ready.dbuf_wf {s : State} (h : s.Ready) : s.dbuf.wf = true := by
  obtain ⟨-, -, -, ⟨hd, -⟩, -⟩ := h
  exact hd

theorem exec_of_chain {s t : State} {i : Instr} {fs : List (Frame × List Byte)} (hs : s.Ready) (h : Chain (s.loaded i) fs t)
    (ht : t.currentFrame = none) (hm : chainMoves fs < moveBound) :
    exec i s = .next t.finish ∧ Performed (if opcodeReads i.opcode then s.cfg.cmdRead else s.cfg.cmdWrite) (linkFrames fs) s t.finish := by
  obtain ⟨-, hsel, he, -, hc⟩ := hs
  obtain ⟨-, -, hph, hb, hok, her, -, -, htr, -, htp, hcfg⟩ := s.loaded_fields i
  obtain ⟨hlsel, hin⟩ := s.loaded_selline_inputs i
  obtain ⟨hrun, hperf⟩ :=
    State.performed_of_chain hb hok hph (hlsel.trans hsel) htr her htp hin hcfg hc he h ht hm
  rw [exec_eq_resume, hrun, ← s.loaded_controlByte]
  exact ⟨rfl, hperf⟩

/-- Every operation but RDMSG, from a ready state. -/
theorem exec_performs {s : State} {i : Instr} (hs : s.Ready) (hi : i.wf = true) (hne : i.opcode ≠ .rdmsg) :
    ∃ t, Chain (s.loaded i) (s.operation i) t ∧ exec i s = .next t.finish ∧
      Performed (if opcodeReads i.opcode then s.cfg.cmdRead else s.cfg.cmdWrite) (linkFrames (s.operation i)) s t.finish := by
  obtain ⟨t, ht, hend⟩ := Chain.exists_operation hs.dbuf_wf hi hne
  exact ⟨t, ht, exec_of_chain hs ht hend (s.operation_moves hi hne)⟩

theorem Chain.eq_afterTransaction {s t : State} {f : Frame} {sent : List Byte} (h : Chain s [(f, sent)] t) :
    t = s.afterTransaction f sent := by
  cases h with
  | cons _ _ h =>
    cases h
    rfl

/-- What the end of an operation leaves of the last transaction's latches. -/
theorem State.finish_latches (s : State) :
    s.finish.a = s.a ∧ s.finish.c = s.c ∧ s.finish.n = s.n ∧ s.finish.rx = s.rx ∧ s.finish.r = s.r := by
  unfold State.finish State.deliverResult
  dsimp only
  split <;> exact ⟨rfl, rfl, rfl, rfl, rfl⟩

/-- What is delivered is what the host reads (R16). -/
theorem delivered_of_deliver {s : State} {bs : List Byte} (h : s.deliverResult = s.deliver bs) (hl : bs.length ≤ 255) :
    Delivered bs s.finish := by
  have hrlen : s.finish.rlen = BitVec.ofNat 8 bs.length := congrArg State.rlen h
  have hrbuf : s.finish.rbuf = Memory.load [] bs := congrArg State.rbuf h
  refine ⟨hrlen, fun k b hk => ?_⟩
  have hlt : k < s.finish.rlen.toNat := by
    have := (List.getElem?_eq_some_iff.mp hk).1
    rw [hrlen, BitVec.toNat_ofNat]
    omega
  rw [State.resultByte, if_pos hlt, hrbuf, Memory.read_load Memory.wf_nil hl, hk]
  rfl

theorem State.loaded_answer (s : State) (i : Instr) : (s.loaded i).answer = s.answer := by
  obtain ⟨-, -, -, -, -, -, -, -, -, -, htp, -⟩ := s.loaded_fields i
  funext k
  rw [State.answer, htp, State.answer]

/-- The operation with one transaction: its latches afterwards, and the bytes it read where it reads. -/
theorem exec_performs_one {s : State} {i : Instr} {f : Frame} (hs : s.Ready) (hi : i.wf = true) (hne : i.opcode ≠ .rdmsg)
    (hf : (s.loaded i).frames i.opcode = [f]) :
    let control := if opcodeReads i.opcode then s.cfg.cmdRead else s.cfg.cmdWrite
    let last := (s.loaded i).afterTransaction f (sentBy i f)
    exec i s = .next last.finish ∧ Performed control [⟨f.addr, sentBy i f⟩] s last.finish ∧ last.finish.a = f.addr ∧
      last.finish.c = control ∧ last.finish.n = f.count ∧ last.finish.rx = s.answer (1 + (sentBy i f).length) := by
  obtain ⟨t, hchain, hexec, hperf⟩ := exec_performs hs hi hne
  have hop : s.operation i = [(f, sentBy i f)] := by rw [State.operation, hf]; rfl
  rw [hop] at hchain hperf
  obtain rfl := hchain.eq_afterTransaction
  obtain ⟨ha, hc, hn, hrx, -⟩ := ((s.loaded i).afterTransaction f (sentBy i f)).finish_latches
  refine ⟨hexec, hperf, ha.trans ?_, hc.trans ?_, hn.trans ?_, hrx.trans ?_⟩ <;>
    simp [s.loaded_controlByte, s.loaded_answer]

/-! ## The primitive operations -/

/-- Settles O15: one frame, its byte loaded on acceptance. -/
theorem wrregResult : Obligations.WrregResult := by
  intro s a v hs
  obtain ⟨hexec, hperf, ha, hc, hn, hrx⟩ := exec_performs_one (i := .wrreg a v) (f := .block a 1) hs rfl nofun rfl
  have hdbuf (j : Nat) : ((s.loaded (.wrreg a v)).afterTransaction (.block a 1) [v]).finish.dbuf.read j =
      ([v][j]?).getD (s.dbuf.read j) := by
    rw [State.finish_dbuf, State.afterTransaction_dbuf]
    exact Memory.read_load hs.dbuf_wf (by simp [bufferSize]) j
  refine ⟨_, hexec, hperf, ha, hc, hn, hrx, hdbuf 0, fun j hj => (hdbuf j).trans ?_,
    writersLeaveResultsUnchanged s _ (.wrreg a v) (by simp [Instr.opcode]) hexec⟩
  rw [List.getElem?_eq_none (Nat.one_le_iff_ne_zero.mpr hj)]
  rfl

/-- Settles O16: one frame, its payload loaded on acceptance. -/
theorem wrblkResult : Obligations.WrblkResult := by
  intro s a d hs hd
  have hwf : (Instr.wrblk a d).wf = true := decide_eq_true hd
  obtain ⟨hexec, hperf, ha, hc, hn, hrx⟩ := exec_performs_one (i := .wrblk a d) (f := .block a (countByte d)) hs hwf nofun rfl
  refine ⟨_, hexec, hperf, ha, hc, ?_, hrx, fun j => ?_, writersLeaveResultsUnchanged s _ (.wrblk a d) (by simp [Instr.opcode]) hexec⟩
  · rw [hn]
    exact Laws.countByte_toNat hd
  · rw [State.finish_dbuf, State.afterTransaction_dbuf]
    exact Memory.read_load hs.dbuf_wf hd j

/-- Settles O17: one frame, whose one byte read is delivered. -/
theorem rdregResult : Obligations.RdregResult := by
  intro s a hs
  obtain ⟨hexec, hperf, ha, hc, hn, hrx⟩ := exec_performs_one (i := .rdreg a) (f := .block a 1) hs rfl nofun rfl
  refine ⟨_, hexec, hperf, ha, hc, hn, hrx, delivered_of_deliver rfl (by simp), fun j => ?_⟩
  exact (dbufFrame s _ (.rdreg a) hs.dbuf_wf hexec).1 (by simp [Instr.opcode]) j

/-- Settles O18: one frame, whose bytes read are delivered. -/
theorem rdblkResult : Obligations.RdblkResult := by
  intro s a n hs
  have hn' := n.isLt
  obtain ⟨hexec, hperf, ha, hc, hn, hrx⟩ := exec_performs_one (i := .rdblk a n) (f := .block a n) hs rfl nofun rfl
  have hsent : (sentBy (.rdblk a n) (.block a n)).length = n.toNat := List.length_replicate
  have hr : ((s.loaded (.rdblk a n)).afterTransaction (.block a n) (sentBy (.rdblk a n) (.block a n))).r =
      (List.range n.toNat).map fun k => s.answer (k + 2) := by
    rw [State.afterTransaction_r, hsent]
    rfl
  refine ⟨_, hexec, hperf, ha, hc, hn, hsent ▸ hrx, ?_, fun j => (dbufFrame s _ (.rdblk a n) hs.dbuf_wf hexec).1 (by simp [Instr.opcode]) j⟩
  exact hr ▸ delivered_of_deliver rfl (by rw [hr]; simp; omega)

end Sys2Proof.Machine
end

section
/-! PROOF. What the channel operations, LASTCH and RDERR do from every ready state (42_channel_encoder.md R110 to R117,
43_message_ingest.md R132, 44_status_ops.md R140). -/

namespace Sys2Proof.Machine

/-! ## The channel operations -/

/-- The operations that deliver nothing: their frames, the latches acceptance has loaded, and the results as they were. -/
theorem exec_writes {s : State} {i : Instr} (hs : s.Ready) (hi : i.wf = true)
    (hw : i.opcode ∈ [.wrreg, .wrblk, .chdis, .chtx, .chrx, .chrrn, .chrr, .chir, .chdr, .chrrd]) :
    ∃ t, exec i s = .next t ∧ Performed s.cfg.cmdWrite (linkFrames (s.operation i)) s t ∧ SameOperands (s.loaded i) t ∧
      SameIntermediates (s.loaded i) t ∧ SameResult s t := by
  obtain ⟨hr, hne⟩ : opcodeReads i.opcode = false ∧ i.opcode ≠ .rdmsg := by
    revert hw
    cases i.opcode <;> decide
  obtain ⟨t, -, hexec, hperf⟩ := exec_performs hs hi hne
  have hnot : (s.loaded i).opcode ≠ some .rdmsg := fun h => hne (Option.some.inj ((s.loaded_opcode i).symm.trans h))
  have hrun := exec_next hexec
  rw [hr] at hperf
  exact ⟨t.finish, hexec, hperf, hrun ▸ (s.loaded i).resume_sameOperands, hrun ▸ State.resume_sameIntermediates hnot,
    writersLeaveResultsUnchanged s _ i hw hexec⟩

/-- The `c*30` operations keep the latches they have loaded to their end (R11, R102). -/
theorem exec_configures {s : State} {i : Instr} (hs : s.Ready) (hi : i.wf = true)
    (hw : i.opcode ∈ [.chrx, .chrrn, .chrr, .chir, .chdr, .chrrd]) (hptr : (s.loaded i).ptr = (s.loaded i).ch * 30) :
    ∃ t, exec i s = .next t ∧ Performed s.cfg.cmdWrite (linkFrames (s.operation i)) s t ∧
      ConfiguredLatches (s.loaded i).ch (s.loaded i).id1 (s.loaded i).id2 (s.loaded i).len (s.loaded i).bIdcmd (s.loaded i).bMptr
        (s.loaded i).bLsta t ∧ SameResult s t := by
  obtain ⟨t, hexec, hperf, ho, hm, hres⟩ := exec_writes hs hi (by
    revert hw
    cases i.opcode <;> decide)
  exact ⟨t, hexec, hperf, ⟨ho.ch, ho.id1, ho.id2, ho.len, hm.ptr.trans hptr, ho.bIdcmd, ho.bMptr, ho.bLsta⟩, hres⟩

/-- Settles O19: the six frames are fixed when CH is loaded. -/
theorem chdisResult : Obligations.ChdisResult := by
  intro s ch hs
  obtain ⟨t, hexec, hperf, ho, -, hres⟩ := exec_writes (i := .chdis ch) hs rfl (by simp [Instr.opcode])
  exact ⟨t, hexec, hperf, ho.ch, hres⟩

/-- Settles O20: the staging frame and the four register frames are fixed when the latches are loaded. -/
theorem chtxResult : Obligations.ChtxResult := by
  intro s ch i1 i2 rak d hs hd
  obtain ⟨t, hexec, hperf, ho, hm, hres⟩ :=
    exec_writes (i := .chtx ch i1 i2 rak d) hs (decide_eq_true hd) (by simp [Instr.opcode])
  have hml : BitVec.ofNat 8 (d.length + 1) = countByte d + 1 := BitVec.ofNat_add _ _
  have hlen : t.len.toNat = d.length := by
    rw [ho.len]
    exact Laws.countByte_toNat hd
  rw [hml]
  exact ⟨t, hexec, hperf, ho.ch, ho.id1, ho.id2, hlen, ho.rakl, hm.ptr, ho.bIdcmd, ho.bMptr, ho.bLsta, hres⟩

/-- Settles O21: each mode's row of the table gives its flags (R101). -/
theorem plainConfigureResult : Obligations.PlainConfigureResult := fun _ ch i1 i2 len hs =>
  ⟨exec_configures (i := .chrx ch i1 i2 len) hs rfl (by simp [Instr.opcode]) rfl,
    exec_configures (i := .chrrn ch i1 i2 len) hs rfl (by simp [Instr.opcode]) rfl,
    exec_configures (i := .chrr ch i1 i2 len) hs rfl (by simp [Instr.opcode]) rfl,
    exec_configures (i := .chrrd ch i1 i2 len) hs rfl (by simp [Instr.opcode]) rfl⟩

/-- Settles O22: each mode's row of the table gives its flags (R101). -/
theorem stagedReplyResult : Obligations.StagedReplyResult := fun _ ch i1 i2 d hs hd =>
  ⟨exec_configures (i := .chir ch i1 i2 d) hs (decide_eq_true hd) (by simp [Instr.opcode]) rfl,
    exec_configures (i := .chdr ch i1 i2 d) hs (decide_eq_true hd) (by simp [Instr.opcode]) rfl⟩

/-! ## LASTCH -/

/-- The 3-bit field of the last-message-status register as a number (R67). -/
theorem lastChannel_eq (p : Params) (v : Byte) : lastChannel p v = BitVec.ofNat 8 (v.toNat / 2 ^ p.lastchLsb % 8) := by
  have hmask : channelMask.toNat = 2 ^ 3 - 1 := rfl
  apply BitVec.eq_of_toNat_eq
  rw [lastChannel, BitVec.toNat_and, hmask, Nat.and_two_pow_sub_one_eq_mod, BitVec.toNat_ushiftRight, Nat.shiftRight_eq_div_pow,
    BitVec.toNat_ofNat]
  omega

/-- Settles O24: one frame, whose one byte read is reduced to its 3-bit field. -/
theorem lastchResult : Obligations.LastchResult := by
  intro s hs
  obtain ⟨hexec, hperf, -, -, -, hrx⟩ := exec_performs_one (i := .lastch) (f := .block (fixedAddress s.cfg .lastmsg) 1) hs rfl nofun rfl
  refine ⟨_, hexec, hperf, ?_, ?_, fun j => (dbufFrame s _ .lastch hs.dbuf_wf hexec).1 (by decide) j⟩
  · rw [← lastChannel_eq]
    exact delivered_of_deliver rfl (by simp)
  · rw [BitVec.toNat_ofNat]
    omega

/-! ## RDERR -/

/-- The value of the lowest `k` bytes of a number, the most significant first. -/
theorem foldl_bytes (e k acc : Nat) :
    ((List.range k).map fun j => BitVec.ofNat 8 (e / 2 ^ (8 * (k - j - 1)))).foldl (fun acc (b : Byte) => 256 * acc + b.toNat) acc =
      256 ^ k * acc + e % 256 ^ k := by
  induction k generalizing acc with
  | zero => simp [Nat.mod_one]
  | succ k ih =>
    have hshift : ∀ j, k + 1 - (j + 1) - 1 = k - j - 1 := by omega
    have htop : 2 ^ (8 * k) = 256 ^ k := by rw [Nat.pow_mul]
    rw [List.range_succ_eq_map, List.map_cons, List.map_map, List.foldl_cons]
    simp only [Function.comp_def, Nat.succ_eq_add_one, hshift, ih, Nat.sub_zero, Nat.add_sub_cancel, BitVec.toNat_ofNat, htop]
    rw [Nat.pow_succ 256 k, Nat.mod_mul]
    ring

theorem errcntBytes_value {p : Params} {e : Nat} (hp : p.wf = true) (he : e < 2 ^ p.errcntW) :
    (errcntBytes p e).foldl (fun acc b => 256 * acc + b.toNat) 0 = e := by
  have hw : p.errcntW = 8 * (p.errcntW / 8) := by
    simp only [Params.wf, Bool.and_eq_true, decide_eq_true_eq] at hp
    omega
  have hlt : e < 256 ^ (p.errcntW / 8) := by
    rw [show (256 : Nat) = 2 ^ 8 from rfl, ← Nat.pow_mul, ← hw]
    exact he
  rw [errcntBytes, foldl_bytes, Nat.mul_zero, Nat.zero_add, Nat.mod_eq_of_lt hlt]

/-- Settles O25: RDERR has no frame, so that its end is its first move. -/
theorem rderrResult : Obligations.RderrResult := by
  intro s hp he hb
  have hlen : (errcntBytes s.cfg s.errcnt).length = s.cfg.errcntW / 8 := by simp [errcntBytes]
  have hle : s.cfg.errcntW / 8 ≤ 255 := by
    simp only [Params.wf, Bool.and_eq_true, decide_eq_true_eq] at hp
    omega
  have hend : (s.loaded .rderr).beginTransaction = (s.loaded .rderr).finish := State.beginTransaction_none rfl
  have hrun : (s.loaded .rderr).resume = (s.loaded .rderr).finish := by
    rw [State.resume_of_idle rfl rfl, hend]
    exact State.run_of_not_running (State.not_running_of_idle rfl) _
  refine ⟨(s.loaded .rderr).finish, errcntBytes s.cfg s.errcnt, by rw [exec_eq_resume, hrun], hlen, errcntBytes_value hp he,
    delivered_of_deliver rfl (hlen.trans_le hle), ?_⟩
  rw [hb]
  rfl

end Sys2Proof.Machine
end

section
/-! PROOF. RDMSG from every ready state (43_message_ingest.md R131): five reads, the addresses and the count of the last two of them
bytes read before. -/

namespace Sys2Proof.Machine

/-- The state after a transaction that reads. -/
def State.afterRead (s : State) (f : Frame) : State := s.afterTransaction f (List.replicate f.count.toNat filler)

section
variable (s : State) (f : Frame)

@[simp] theorem State.afterRead_opcode : (s.afterRead f).opcode = s.opcode := s.afterTransaction_opcode f _
@[simp] theorem State.afterRead_mstep : (s.afterRead f).mstep = s.mstep + 1 := rfl
@[simp] theorem State.afterRead_cfg : (s.afterRead f).cfg = s.cfg := (s.afterTransaction_sameBlock f _).cfg
@[simp] theorem State.afterRead_ch : (s.afterRead f).ch = s.ch := (s.afterTransaction_sameBlock f _).ch

@[simp] theorem State.afterRead_answer (k : Nat) : (s.afterRead f).answer k = s.answer (2 + f.count.toNat + k) := by
  simp [State.afterRead]

theorem State.afterRead_r (h : s.reads = true) :
    (s.afterRead f).r = (List.range f.count.toNat).map fun k => s.answer (k + 2) := by
  simp [State.afterRead, h]

end

/-- What RDMSG keeps of a transaction: its last byte, in the latch its place in the operation gives (R131). -/
theorem State.afterRead_collects {s : State} (h : s.opcode = some .rdmsg) (f : Frame) :
    let t := s.afterRead f
    let last := s.answer (1 + f.count.toNat)
    t.b0 = (if s.mstep = 0 then last else s.b0) ∧ t.b1 = (if s.mstep = 1 then last else s.b1) ∧
      t.p = (if s.mstep = 2 then last else s.p) ∧ t.sta = (if s.mstep = 3 then last else s.sta) ∧
      t.ptr = if s.mstep = 3 then s.ch * rxSpacing else s.ptr := by
  have hop : ((s.begun f).frameDone (List.replicate f.count.toNat filler)).opcode = some .rdmsg := h
  have hm : ((s.begun f).frameDone (List.replicate f.count.toNat filler)).mstep = s.mstep := rfl
  have hrx : ((s.begun f).frameDone (List.replicate f.count.toNat filler)).rx = s.answer (1 + f.count.toNat) := by
    simp only [State.frameDone, List.length_replicate]
    rfl
  simp only [State.afterRead, State.afterTransaction, State.collect, hop, hm]
  rcases s.mstep with _ | _ | _ | _ | m <;> simp [hrx] <;> simp [State.frameDone, State.begun]

theorem Chain.read {s t : State} {f : Frame} {fs : List (Frame × List Byte)} (ho : s.opcode = some .rdmsg)
    (hf : s.messageFrames[s.mstep]? = some f) (h : Chain (s.afterRead f) fs t) :
    Chain s ((f, List.replicate f.count.toNat filler) :: fs) t :=
  .cons ((State.currentFrame_of_opcode ho).trans hf) (State.payloadOf_read (State.reads_of_opcode ho) f) h

/-- The transactions of RDMSG, in terms of the bytes the target returns. -/
def messageReads (s : State) (ch : Byte) : List Frame :=
  [.block (chreg s.cfg ch s.cfg.offIdtag) 1, .block (chreg s.cfg ch s.cfg.offIdcmd) 1, .block (chreg s.cfg ch s.cfg.offMptr) 1,
    .block (mbaddr (stripDrak (s.answer 8))) 1, .block (mbaddr (ch * rxSpacing + 1)) (statusLength (s.answer 11))]

theorem Chain.exists_rdmsg (s : State) (ch : Byte) :
    ∃ t, Chain (s.loaded (.rdmsg ch)) ((messageReads s ch).map fun f => (f, List.replicate f.count.toNat filler)) t ∧
      t.currentFrame = none ∧ t.opcode = some .rdmsg ∧ t.b0 = s.answer 2 ∧ t.b1 = s.answer 5 ∧
      t.r = (List.range (statusLength (s.answer 11)).toNat).map fun k => s.answer (14 + k) := by
  have hop : (s.loaded (.rdmsg ch)).opcode = some .rdmsg := s.loaded_opcode _
  have hans := congrFun (s.loaded_answer (.rdmsg ch))
  obtain ⟨-, hm, -, -, -, -, -, -, -, -, -, hcfg⟩ := s.loaded_fields (.rdmsg ch)
  have hch : (s.loaded (.rdmsg ch)).ch = ch := rfl
  generalize s.loaded (.rdmsg ch) = s₀ at hop hans hm hcfg hch
  have collected {t : State} (ht : t.opcode = some .rdmsg) (f : Frame) := State.afterRead_collects ht f
  refine ⟨_, .read hop ?_ (.read ?_ ?_ (.read ?_ ?_ (.read ?_ ?_ (.read ?_ ?_ (.nil _))))), ?_, ?_, ?_, ?_, ?payload⟩
  case payload =>
    rw [State.afterRead_r _ _ (State.reads_of_opcode (o := .rdmsg) (by simp [hop]))]
    simp only [State.afterRead_answer, Frame.block, hans]
    refine List.map_congr_left fun k _ => congrArg s.answer ?_
    simp
    omega
  all_goals
    simp [State.currentFrame, State.frames, State.messageFrames, Frame.block, collected, hop, hm, hcfg, hch, hans]

/-- Settles O23: the chain of the five reads, and what it keeps of each. -/
theorem rdmsgResult : Obligations.RdmsgResult := by
  intro s ch hs
  obtain ⟨t, hchain, hend, hop, hb0, hb1, hr⟩ := Chain.exists_rdmsg s ch
  have hn : (statusLength (s.answer 11)).toNat = (s.answer 11).toNat % 32 := statusLength_toNat _
  have hmoves : chainMoves ((messageReads s ch).map fun f => (f, List.replicate f.count.toNat filler)) < moveBound := by
    simp [messageReads, chainMoves, Frame.block, moveBound, hn]
    omega
  obtain ⟨hexec, hperf⟩ := exec_of_chain hs hchain hend hmoves
  have hdeliver : t.deliverResult = t.deliver (s.answer 2 :: s.answer 5 :: (List.range ((s.answer 11).toNat % 32)).map fun k =>
      s.answer (14 + k)) := by
    simp only [State.deliverResult, hop, hb0, hb1, hr, hn]
  have hdelivered := delivered_of_deliver hdeliver (by simp; omega)
  refine ⟨t.finish, hexec, ?_, hdelivered, ?_, fun j => (dbufFrame s _ (.rdmsg ch) hs.dbuf_wf hexec).1 (by simp [Instr.opcode]) j⟩
  · rw [← hn]
    exact hperf
  · rw [hdelivered.1]
    simp
    omega

end Sys2Proof.Machine
end

section
/-! PROOF. Counting (40_register_access.md R78, 60_exceptions.md R151, R152, 70_reset_and_hazards.md R188): the failed checks, the
exchanges and the delay slots of a whole operation are those of its frames. -/

namespace Sys2Proof.Machine

/-! ## The failed checks -/

theorem State.loaded_frames_length (s : State) (i : Instr) : ((s.loaded i).frames i.opcode).length = frameCount i := by
  cases i <;> rfl

theorem State.operation_length (s : State) (i : Instr) : (linkFrames (s.operation i)).length = frameCount i := by
  rw [linkFrames, State.operation, List.length_map, List.length_map, s.loaded_frames_length]

/-- Every operation performs as many frames as R152's table says. -/
theorem exec_performs_frameCount {s : State} {i : Instr} (hs : s.Ready) (hi : i.wf = true) :
    ∃ t c fs, exec i s = .next t ∧ Performed c fs s t ∧ fs.length = frameCount i := by
  by_cases hne : i.opcode = .rdmsg
  · cases i
    case rdmsg ch =>
      obtain ⟨t, hexec, hperf, -⟩ := rdmsgResult s ch hs
      exact ⟨t, _, _, hexec, hperf, rfl⟩
    all_goals contradiction
  · obtain ⟨t, -, hexec, hperf⟩ := exec_performs hs hi hne
    exact ⟨t.finish, _, _, hexec, hperf, s.operation_length i⟩

/-- Settles O28: the failed checks of the trace are those of the frames, two a frame at most. -/
theorem operationRaisesCounterByAtMostTwiceItsFrames : Obligations.OperationRaisesCounterByAtMostTwiceItsFrames := by
  intro s i hs hi
  obtain ⟨t, c, fs, hexec, ⟨htrace, herrcnt, -⟩, hlen⟩ := exec_performs_frameCount hs hi
  refine ⟨t, _, hexec, htrace, ?_, ?_⟩ <;> rw [failedChecks_framesTrace]
  · exact herrcnt
  · exact hlen ▸ framesMisses_le s.cfg fs s.answer

/-- Settles O27: each of the four has one frame. -/
theorem transactionCountsItsTwoChecks : Obligations.TransactionCountsItsTwoChecks := by
  intro s i hs hi hmem
  obtain ⟨t, c, fs, hexec, ⟨-, herrcnt, -⟩, hlen⟩ := exec_performs_frameCount hs hi
  have hone : frameCount i = 1 := by
    cases i
    case wrreg | wrblk | rdreg | rdblk => rfl
    all_goals simp [Instr.opcode] at hmem
  obtain ⟨f, rfl⟩ := List.length_eq_one_iff.mp (hlen.trans hone)
  exact ⟨t, frameMisses s.cfg s.answer, hexec, herrcnt, frameMisses_le _ _, rfl⟩

/-! ## Exchanges and delay slots -/

/-- Whether an event is an exchange. -/
def LinkEvent.isExchange : LinkEvent → Bool
  | .x _ _ => true
  | _ => false

/-- Whether an event is a delay. -/
def LinkEvent.isDelay : LinkEvent → Bool
  | .dly _ => true
  | _ => false

/-- No delay slot is empty. -/
def NoZeroDelay (p : Params) : Prop := p.tSel ≠ 0 ∧ p.tAddr ≠ 0 ∧ p.tCmd ≠ 0 ∧ p.tData ≠ 0 ∧ p.tDesel ≠ 0

/-- The payload bytes of frames one after another. -/
def framesPayload (fs : List LinkFrame) : Nat := (fs.map fun f => f.sent.length).sum

@[simp] theorem countP_isExchange_slot (n : Nat) : (slot n).countP LinkEvent.isExchange = 0 := by
  unfold slot
  split <;> rfl

theorem countP_isDelay_slot {n : Nat} (h : n ≠ 0) : (slot n).countP LinkEvent.isDelay = 1 := by
  rw [slot, if_neg h]
  rfl

theorem countP_payloadTrace (p : Params) (bs : List Byte) (ans : Nat → Byte) :
    (payloadTrace p bs ans).countP LinkEvent.isExchange = bs.length ∧
      (p.tData ≠ 0 → (payloadTrace p bs ans).countP LinkEvent.isDelay = bs.length) := by
  induction bs generalizing ans with
  | nil => exact ⟨rfl, fun _ => rfl⟩
  | cons b bs ih =>
    obtain ⟨hx, hd⟩ := ih fun k => ans (k + 1)
    refine ⟨?_, fun h => ?_⟩
    · simp [payloadTrace, hx, List.countP_cons, LinkEvent.isExchange]
    · simp [payloadTrace, hd h, countP_isDelay_slot h, LinkEvent.isDelay, Nat.add_comm]

/-- A frame has two exchanges and four delay slots beside those of its payload (R70, R71). -/
theorem countP_frameTrace (p : Params) (c : Byte) (f : LinkFrame) (ans : Nat → Byte) :
    (frameTrace p c f ans).countP LinkEvent.isExchange = 2 + f.sent.length ∧
      (NoZeroDelay p → (frameTrace p c f ans).countP LinkEvent.isDelay = 4 + f.sent.length) := by
  obtain ⟨hx, hd⟩ := countP_payloadTrace p f.sent fun k => ans (k + 2)
  refine ⟨?_, fun ⟨hsel, haddr, hcmd, hdata, hdesel⟩ => ?_⟩
  · simp [frameTrace, hx, List.countP_cons, LinkEvent.isExchange]
    omega
  · simp [frameTrace, hd hdata, countP_isDelay_slot hsel, countP_isDelay_slot haddr, countP_isDelay_slot hcmd,
      countP_isDelay_slot hdesel, LinkEvent.isDelay]
    omega

theorem countP_framesTrace (p : Params) (c : Byte) (fs : List LinkFrame) (ans : Nat → Byte) :
    (framesTrace p c fs ans).countP LinkEvent.isExchange = 2 * fs.length + framesPayload fs ∧
      (NoZeroDelay p → (framesTrace p c fs ans).countP LinkEvent.isDelay = 4 * fs.length + framesPayload fs) := by
  induction fs generalizing ans with
  | nil => exact ⟨rfl, fun _ => rfl⟩
  | cons f fs ih =>
    obtain ⟨hx, hd⟩ := ih fun k => ans (k + f.exchanges)
    obtain ⟨hfx, hfd⟩ := countP_frameTrace p c f ans
    simp only [framesTrace, framesPayload, List.countP_append, List.map_cons, List.sum_cons, List.length_cons] at hx hd ⊢
    exact ⟨by omega, fun h => by rw [hd h, hfd h]; omega⟩

/-- How many payload bytes the frames of an operation but RDMSG have (R188). -/
def payloadCount : Instr → Nat
  | .wrreg _ _ => 1
  | .wrblk _ d => d.length
  | .rdreg _ => 1
  | .rdblk _ n => n.toNat
  | .chdis _ => 6
  | .chtx _ _ _ _ d => d.length + 4
  | .chrx _ _ _ _ => 4
  | .chrrn _ _ _ _ => 4
  | .chrr _ _ _ _ => 4
  | .chir _ _ _ d => d.length + 4
  | .chdr _ _ _ d => d.length + 4
  | .chrrd _ _ _ _ => 4
  | .rdmsg _ => 0
  | .lastch => 1
  | .rderr => 0

theorem State.operation_payload (s : State) {i : Instr} (hne : i.opcode ≠ .rdmsg) :
    framesPayload (linkFrames (s.operation i)) = payloadCount i := by
  cases i
  case rdmsg => exact absurd rfl hne
  case rdblk a n => exact List.length_replicate
  all_goals rfl

/-- Settles O38: the events of the trace are counted frame by frame. -/
theorem exchangeAndSlotCounts : Obligations.ExchangeAndSlotCounts := by
  intro s i n hs hi hn
  obtain ⟨hne, hcount⟩ : i.opcode ≠ .rdmsg ∧ payloadCount i = n := by
    cases i <;> simp [Instr.opcode, Instr.payload, payloadCount] at hn ⊢ <;> omega
  obtain ⟨t, -, hexec, htrace, -⟩ := exec_performs hs hi hne
  obtain ⟨hx, hd⟩ := countP_framesTrace s.cfg (if opcodeReads i.opcode then s.cfg.cmdRead else s.cfg.cmdWrite)
    (linkFrames (s.operation i)) s.answer
  rw [s.operation_length, s.operation_payload hne, hcount] at hx hd
  exact ⟨t.finish, _, hexec, htrace, hx, fun hsel haddr hcmd hdata hdesel => hd ⟨hsel, haddr, hcmd, hdata, hdesel⟩⟩

/-! ## CHDIS twice -/

@[simp] theorem sentView_append (x y : List LinkEvent) : sentView (x ++ y) = sentView x ++ sentView y := List.map_append

@[simp] theorem sentView_slot (n : Nat) : sentView (slot n) = slot n := by
  unfold slot
  split <;> rfl

@[simp] theorem sentView_nil : sentView [] = [] := rfl
@[simp] theorem sentView_sel (x : List LinkEvent) : sentView (.sel :: x) = .sel :: sentView x := rfl
@[simp] theorem sentView_desel (x : List LinkEvent) : sentView (.desel :: x) = .desel :: sentView x := rfl
@[simp] theorem sentView_x (b r : Byte) (x : List LinkEvent) : sentView (.x b r :: x) = .x b 0 :: sentView x := rfl

theorem sentView_payloadTrace (p : Params) (bs : List Byte) (ans : Nat → Byte) :
    sentView (payloadTrace p bs ans) = payloadTrace p bs fun _ => 0 := by
  induction bs generalizing ans with
  | nil => rfl
  | cons b bs ih => simp [payloadTrace, ih]

/-- What frames send does not depend on what is returned (R76). -/
theorem sentView_framesTrace (p : Params) (c : Byte) (fs : List LinkFrame) (ans : Nat → Byte) :
    sentView (framesTrace p c fs ans) = framesTrace p c fs fun _ => 0 := by
  induction fs generalizing ans with
  | nil => rfl
  | cons f fs ih => simp [framesTrace, frameTrace, sentView_payloadTrace, ih]

/-- What an operation puts on the link, but for the bytes returned. -/
theorem Performed.sent {c : Byte} {fs : List LinkFrame} {s t : State} (h : Performed c fs s t) :
    ∃ x, t.trace = s.trace ++ x ∧ sentView x = framesTrace s.cfg c fs fun _ => 0 := by
  obtain ⟨htrace, -⟩ := h
  exact ⟨_, htrace, sentView_framesTrace ..⟩

theorem State.finish_buffersCanonical {s : State} (h : s.BuffersCanonical) : s.finish.BuffersCanonical :=
  ⟨s.finish_dbuf ▸ h.1, State.finish_rbuf_wf h.2⟩

theorem State.resume_buffersCanonical {s : State} (h : s.BuffersCanonical) : s.resume.BuffersCanonical := by
  refine State.resume_keeps (P := State.BuffersCanonical) ?_ ?_ ?_ ?_ h
  · intro t u hu ht
    exact ⟨hu.dbuf ▸ ht.1, hu.rbuf ▸ ht.2⟩
  · intro t f _ ht
    exact ⟨State.begun_dbuf_wf f ht.1, ht.2⟩
  · intro t ht
    exact State.finish_buffersCanonical ht
  · intro t ht
    exact ⟨t.collect_dbuf ▸ ht.1, t.collect_sameBlock.rbuf ▸ ht.2⟩

/-- An operation performed from a ready state leaves a ready state. -/
theorem ready_of_exec {s t : State} {i : Instr} {c : Byte} {fs : List LinkFrame} (hs : s.Ready) (hexec : exec i s = .next t)
    (h : Performed c fs s t) : t.Ready := by
  obtain ⟨-, -, -, ⟨hd, hr⟩, hc⟩ := hs
  obtain ⟨-, herrcnt, htp, hb, -, hsel, -, -, -, -, hcfg⟩ := h
  obtain ⟨-, -, -, -, -, -, hrbuf, -⟩ := s.loaded_fields i
  refine ⟨hb, hsel, ?_, ?_, ?_⟩
  · rw [State.ErrcntInRange, herrcnt, hcfg]
    exact Nat.mod_lt _ (Nat.two_pow_pos _)
  · rw [exec_next hexec]
    exact State.resume_buffersCanonical ⟨s.loaded_dbuf i ▸ Memory.load_wf hd, hrbuf ▸ hr⟩
  · rw [State.Completes, htp]
    exact hc

/-- Settles O37: CHDIS leaves a ready state, and what a frame sends is in the frame. -/
theorem disableTwiceSendsTheSame : Obligations.DisableTwiceSendsTheSame := by
  intro s ch hs
  obtain ⟨t, hexec, hperf, -⟩ := chdisResult s ch hs
  obtain ⟨u, hexec', hperf', -⟩ := chdisResult t ch (ready_of_exec hs hexec hperf)
  obtain ⟨-, -, -, -, -, -, -, -, -, -, hcfg⟩ := id hperf
  obtain ⟨x, hx, hsent⟩ := hperf.sent
  obtain ⟨y, hy, hsent'⟩ := hperf'.sent
  rw [hcfg] at hsent'
  exact ⟨t, u, hexec, hexec', x, y, hx, hy, hsent.trans hsent'.symm, hsent⟩

end Sys2Proof.Machine
end

section
/-! PROOF. Fire and count (40_register_access.md R76): two chains of the same transactions, whatever is returned in each, leave the same
block but for the counter, RX, the history, the Transport and the bytes read. -/

namespace Sys2Proof.Machine

/-- The same block with another counter, other bytes returned and another Transport. -/
def State.reanswered (s : State) (errcnt : Nat) (rx : Byte) (trace : List LinkEvent) (transport : Transport) (r : List Byte) :
    State :=
  { s with errcnt, rx, trace, transport, r }

/-- `t` is `s` but for what depends on the bytes returned; as many bytes have been read, and none where the operation writes. -/
def SameButReturned (s t : State) : Prop :=
  ∃ e x l y r, t = s.reanswered e x l y r ∧ r.length = s.r.length ∧ (s.reads = false → r = s.r)

/-- One transaction makes the same of both blocks, where its operation is not RDMSG. -/
theorem SameButReturned.afterTransaction {s t : State} (h : SameButReturned s t) (hne : s.opcode ≠ some .rdmsg) (f : Frame)
    (sent : List Byte) : SameButReturned (s.afterTransaction f sent) (t.afterTransaction f sent) := by
  obtain ⟨e, x, l, y, r, rfl, -, -⟩ := h
  have hreads : (s.reanswered e x l y r).reads = s.reads := rfl
  have hs : ((s.begun f).frameDone sent).collect = (s.begun f).frameDone sent := State.collect_of_not_rdmsg hne
  have ht : (((s.reanswered e x l y r).begun f).frameDone sent).collect =
      ((s.reanswered e x l y r).begun f).frameDone sent := State.collect_of_not_rdmsg hne
  generalize hu : (s.reanswered e x l y r).afterTransaction f sent = u
  refine ⟨u.errcnt, u.rx, u.trace, u.transport, u.r, ?_, ?_, fun hr => ?_⟩ <;> subst hu
  · rw [State.afterTransaction, State.afterTransaction, hs, ht]
    rfl
  · rw [State.afterTransaction_r, State.afterTransaction_r, hreads]
    split <;> simp
  · have hr' : s.reads = false := (State.reads_congr (State.afterTransaction_sameBlock s f sent).op).symm.trans hr
    rw [State.afterTransaction_r, State.afterTransaction_r, hreads, hr']
    rfl

theorem SameButReturned.chain {s t s' t' : State} {fs : List (Frame × List Byte)} (h : Chain s fs s') (h' : Chain t fs t')
    (hst : SameButReturned s t) (hne : s.opcode ≠ some .rdmsg) : SameButReturned s' t' := by
  induction h generalizing t with
  | nil =>
    cases h'
    exact hst
  | cons _ _ _ ih =>
    cases h' with
    | cons _ _ h' => exact ih h' (hst.afterTransaction hne _ _) (by simpa using hne)

theorem errcntBytes_length (p : Params) (e : Nat) : (errcntBytes p e).length = p.errcntW / 8 := by
  simp [errcntBytes]

/-- At the end of the operation the results may differ too, but not in their length. -/
theorem SameButReturned.finish {s t : State} (h : SameButReturned s t) (hne : s.opcode ≠ some .rdmsg) :
    t.finish = { s.finish with
      errcnt := t.finish.errcnt, rx := t.finish.rx, trace := t.finish.trace, transport := t.finish.transport, r := t.finish.r,
      rbuf := t.finish.rbuf } := by
  obtain ⟨e, x, l, y, r, rfl, hlen, -⟩ := h
  have hop : (s.reanswered e x l y r).opcode = s.opcode := rfl
  have hcfg : (s.reanswered e x l y r).cfg = s.cfg := rfl
  have hr : (s.reanswered e x l y r).r = r := rfl
  simp only [State.finish, State.deliverResult, hop]
  split
  case h_3 h => exact absurd h hne
  case h_1 | h_2 => simp only [State.deliver, hr, hlen]; rfl
  case h_5 => simp only [State.deliver, hcfg, errcntBytes_length]; rfl
  all_goals rfl

theorem SameButReturned.finish_silent {s t : State} (h : SameButReturned s t) (hr : s.reads = false)
    (hne : s.opcode ≠ some .rderr) : t.finish.r = s.finish.r ∧ t.finish.rbuf = s.finish.rbuf := by
  obtain ⟨e, x, l, y, r, rfl, -, hsame⟩ := h
  rw [State.finish, State.finish, State.deliverResult_of_writes hr hne,
    State.deliverResult_of_writes (s := s.reanswered e x l y r) hr hne]
  exact ⟨hsame hr, rfl⟩

/-- Settles O29: both runs are chains of the same transactions. -/
theorem sentBytesIgnoreReturnedBytes : Obligations.SentBytesIgnoreReturnedBytes := by
  intro s i answers k e hs hi hne he
  generalize hs' : ({ s with transport := ⟨answers, k, none⟩, errcnt := e } : State) = s'
  have hready : s'.Ready := by
    obtain ⟨hb, hsel, -, hbuf, -⟩ := hs
    subst hs'
    exact ⟨hb, hsel, he, hbuf, rfl⟩
  have hcfg : s'.cfg = s.cfg := by rw [← hs']
  have htrace₀ : s'.trace = s.trace := by rw [← hs']
  have hoperation : s'.operation i = s.operation i := by rw [State.operation, State.operation, State.loaded_frames hcfg hne]
  obtain ⟨t, hchain, hexec, htrace, -⟩ := exec_performs hs hi hne
  obtain ⟨t', hchain', hexec', htrace', -⟩ := exec_performs hready hi hne
  rw [hoperation] at hchain' htrace'
  have hload : SameButReturned (s.loaded i) (s'.loaded i) := by
    subst hs'
    refine ⟨e, (s.loaded i).rx, (s.loaded i).trace, ⟨answers, k, none⟩, (s.loaded i).r, ?_, rfl, fun _ => rfl⟩
    cases i <;> rfl
  have hop : (s.loaded i).opcode = some i.opcode := s.loaded_opcode i
  have hopt : t.opcode = some i.opcode := (State.opcode_congr hchain.sameBlock.op).trans hop
  have hend := hload.chain hchain hchain' (by simpa [hop] using hne)
  refine ⟨t.finish, t'.finish, hexec, hexec', ?_, hend.finish (by simpa [hopt] using hne), fun hmem => ?_⟩
  · rw [htrace, htrace', htrace₀, hcfg, sentView_append, sentView_append, sentView_framesTrace, sentView_framesTrace]
  · obtain ⟨hr, hnerr⟩ : opcodeReads i.opcode = false ∧ i.opcode ≠ .rderr := by
      revert hne hmem
      cases i.opcode <;> decide
    exact hend.finish_silent ((State.reads_of_opcode hopt).trans hr) (by simpa [hopt] using hnerr)

end Sys2Proof.Machine
end

section
/-! PROOF. Payload before configuration at every hold (42_channel_encoder.md R103): what the link shows of an operation that is held is a
beginning of what it will show, and short of it, because a held block still has an event to come. -/

namespace Sys2Proof.Machine

/-! ## A block that is held and what it will show -/

/-- A Transport that completes everything goes on doing so (R179). -/
theorem State.resume_completes {s : State} (h : s.Completes) : s.resume.Completes := by
  refine State.run_keeps (P := State.Completes) (fun t _ ht => ?_) h _
  have hself : t.freed t.inputs = t := by
    rw [State.freed, ← show t.transport.credit = none from ht]
  have htick := t.freed_tick t.inputs
  rw [hself] at htick
  rw [State.Completes, htick]
  rfl

/-- An operation that is never held ends. -/
theorem State.resume_idle {s : State} (h : s.Completes) : s.resume.busy = false := by
  obtain hb | hh := State.settled_iff.mp s.resume_settled
  · exact hb
  · obtain ⟨-, hcredit, -⟩ := (State.held_iff _).mp hh
    exact absurd ((State.resume_completes h).symm.trans hcredit) nofun

/-- What the link will show does not depend on the moves of the surroundings still to come. -/
theorem State.freed_resume_trace (s : State) (l : List Input) : (s.freed l).resume.trace = (s.takeTransport none).trace := by
  have hidle : ((s.freed s.inputs).resume.freed l).running = false  :=
    State.not_running_of_idle (s := (s.freed s.inputs).resume.freed l) (State.resume_idle (s := s.freed s.inputs) rfl)
  have h := (s.freed s.inputs).resume_freed_resume l
  rw [State.resume_of_not_running hidle] at h
  rw [s.takeTransport_none]
  exact (congrArg State.trace h).symm

/-- Where the block waits for the Transport, the next move puts an event on the link (R17). -/
theorem State.tickEvents_ne_nil {s : State} (h : s.awaitsTransport = true) : s.tickEvents ≠ [] := by
  have hslot {n : Nat} (hn : (n != 0) = true) : slot n ≠ [] := by
    rw [slot, if_neg (bne_iff_ne.mp hn)]
    exact List.cons_ne_nil _ _
  unfold State.awaitsTransport at h
  unfold State.tickEvents
  cases hp : s.ph <;> simp only [hp] at h ⊢
  case wSel | wAddr | wCmd | wData | wDesel => exact hslot h
  case addr | cmd | data => exact List.cons_ne_nil _ _
  all_goals contradiction

/-- A held block has more to show. -/
theorem State.trace_ne_of_held {s : State} (h : s.held = true) : s.trace ≠ (s.takeTransport none).trace := by
  obtain ⟨hb, -, hw⟩ := s.held_iff.mp h
  have hfollows : Follows (s.freed s.inputs) (s.freed s.inputs).tick s.tickEvents := State.tick_follows hb
  have hmove : (s.freed s.inputs).resume = State.run (moveBound - 1) (s.freed s.inputs).tick :=
    State.run_move (s := s.freed s.inputs) hb rfl (moveBound - 1)
  obtain ⟨y, hy⟩ : ∃ y, Follows (s.freed s.inputs).tick (s.freed s.inputs).resume y :=
    hmove ▸ State.run_follows _ _
  have htrace := (hfollows.trans hy).trace
  rw [s.takeTransport_none, htrace]
  intro heq
  have hnil := List.self_eq_append_right.mp heq
  exact State.tickEvents_ne_nil hw (List.append_eq_nil_iff.mp hnil).1

/-- A block idle or held shows a beginning of what it will show, and all of it exactly when it is idle. -/
theorem State.Settled.link {s : State} (h : s.Settled) :
    s.trace <+: (s.takeTransport none).trace ∧ (s.busy = false ↔ s.trace = (s.takeTransport none).trace) := by
  obtain ⟨x, hx⟩ := (s.freed s.inputs).resume_follows
  refine ⟨⟨x, hx.trace.symm⟩, fun hb => ?_, fun heq => ?_⟩
  · have hidle : (s.freed s.inputs).running = false := State.not_running_of_idle (s := s.freed s.inputs) hb
    rw [s.takeTransport_none, State.resume_of_not_running hidle]
    rfl
  · exact (State.settled_iff.mp h).resolve_right fun hh => State.trace_ne_of_held hh heq

/-! ## The link of a staged operation -/

/-- What the link shows, beyond `base`, when a staged operation has ended. -/
def stagedWhole (base : List LinkEvent) (d : List Byte) (ans : Nat → Byte) (s : State) : List LinkEvent :=
  base ++ framesTrace s.cfg s.cfg.cmdWrite
    (⟨mbaddr (s.ptr + 1), d⟩ :: singles (registerWrites s.cfg s.ch s.id1 s.bIdcmd s.bMptr s.bLsta)) ans

theorem stagedLink_iff {base : List LinkEvent} {d : List Byte} {ans : Nat → Byte} {s : State} :
    StagedLink base d ans s ↔ s.opcode ∈ [some Opcode.chtx, some .chir, some .chdr] ∧ s.trace <+: stagedWhole base d ans s ∧
      (s.busy = false ↔ s.trace = stagedWhole base d ans s) ∧ (s.takeTransport none).trace = stagedWhole base d ans s := Iff.rfl

theorem stagedLink_of_settled {base : List LinkEvent} {d : List Byte} {ans : Nat → Byte} {s : State} (h : s.Settled)
    (hop : s.opcode ∈ [some Opcode.chtx, some .chir, some .chdr])
    (hend : (s.takeTransport none).trace = stagedWhole base d ans s) : StagedLink base d ans s := by
  obtain ⟨hpre, hall⟩ := h.link
  rw [hend] at hpre hall
  exact stagedLink_iff.mpr ⟨hop, hpre, hall, hend⟩

/-- The operation's latches are what they were when it was accepted. -/
theorem stagedWhole_resume {s : State} (hop : s.opcode ∈ [some Opcode.chtx, some .chir, some .chdr]) (base : List LinkEvent)
    (d : List Byte) (ans : Nat → Byte) : stagedWhole base d ans s.resume = stagedWhole base d ans s := by
  have ho := s.resume_sameOperands
  have hm := State.resume_sameIntermediates (s := s) fun h => by simp [h] at hop
  rw [stagedWhole, ho.cfg, ho.ch, ho.id1, ho.bIdcmd, ho.bMptr, ho.bLsta, hm.ptr, stagedWhole]

/-- A chain of transactions that is never held, from the idle phase to the end of the operation. -/
theorem State.resume_of_chain {s t : State} {fs : List (Frame × List Byte)} (hb : s.busy = true) (hph : s.ph = .idle)
    (hc : s.Completes) (h : Chain s fs t) (ht : t.currentFrame = none) (hm : chainMoves fs < moveBound) :
    s.resume = t.finish := by
  obtain ⟨m, hm'⟩ : ∃ m, moveBound - 1 = chainMoves fs + m := ⟨moveBound - 1 - chainMoves fs, by omega⟩
  rw [State.resume_of_idle hb hph, hm', h.run hb hc, State.beginTransaction_none ht]
  exact State.run_of_not_running (State.not_running_of_idle rfl) m

/-- From acceptance on, what the link will show is the history and the frames of the operation. -/
theorem State.loaded_takeTransport_trace {s : State} {i : Instr} (hd : s.dbuf.wf = true) (hi : i.wf = true)
    (hne : i.opcode ≠ .rdmsg) : ((s.loaded i).takeTransport none).trace =
      s.trace ++ framesTrace s.cfg (s.loaded i).controlByte (linkFrames (s.operation i)) s.answer := by
  have hload : (s.freed s.inputs).loaded i = (s.loaded i).freed s.inputs := by cases i <;> rfl
  have hop : (s.freed s.inputs).operation i = s.operation i := by
    rw [State.operation, State.operation, State.loaded_frames (s := s) (t := s.freed s.inputs) rfl hne]
  obtain ⟨t, hchain, hend⟩ := Chain.exists_operation (s := s.freed s.inputs) hd hi hne
  obtain ⟨-, -, hph, hb, -, -, -, -, htrace, -, -, hcfg⟩ := (s.freed s.inputs).loaded_fields i
  have hans := (s.freed s.inputs).loaded_answer i
  rw [hop] at hchain
  have hrun := State.resume_of_chain hb hph (by rw [hload]; rfl) hchain hend (s.operation_moves hi hne)
  have hfinish : t.finish.trace = t.trace := t.deliverResult_rest.1
  rw [← (s.loaded i).freed_resume_trace s.inputs, ← hload, hrun, hfinish, hchain.trace, htrace, hcfg, hans, hload]
  rfl

/-- A staged operation begins with its link as it should be. -/
theorem stagedLink_of_exec {s t : State} {i : Instr} {d : List Byte} (hd : s.dbuf.wf = true) (hi : i.wf = true)
    (hop : i.opcode ∈ [.chtx, .chir, .chdr]) (hframes : stagedWhole s.trace d s.answer (s.loaded i) =
      s.trace ++ framesTrace s.cfg (s.loaded i).controlByte (linkFrames (s.operation i)) s.answer)
    (h : exec i s = .next t) : StagedLink s.trace d s.answer t := by
  obtain rfl := exec_next h
  have hload : (s.loaded i).opcode ∈ [some Opcode.chtx, some .chir, some .chdr] := by
    rw [s.loaded_opcode]
    simpa using hop
  have hne : i.opcode ≠ .rdmsg := fun h => by simp [h] at hop
  refine stagedLink_of_settled (State.resume_settled _) ?_ ?_
  · exact State.opcode_congr (s.loaded i).resume_sameOperands.op ▸ hload
  · rw [stagedWhole_resume hload, hframes, ← State.loaded_takeTransport_trace hd hi hne, State.takeTransport_none,
      State.resume_freed_resume, State.freed_resume_trace]

/-- Settles O42: a settled block shows a beginning of what it will show, and that is fixed on acceptance. -/
theorem stagedBeforeConfigured : Obligations.StagedBeforeConfigured := by
  refine ⟨fun s t i ch i1 i2 d _ hd hlen hi h => ?_, fun base d ans s t hs hb hr h => ?_⟩
  · have ho := (s.loaded i).resume_sameOperands
    rw [← exec_next h] at ho
    obtain ⟨rak, rfl⟩ | rfl | rfl := hi
    · exact ⟨ho.ch, ho.id1, stagedLink_of_exec (i := .chtx ch i1 i2 rak d) hd (decide_eq_true hlen) (by simp [Instr.opcode]) rfl h⟩
    · exact ⟨ho.ch, ho.id1, stagedLink_of_exec (i := .chir ch i1 i2 d) hd (decide_eq_true hlen) (by simp [Instr.opcode]) rfl h⟩
    · exact ⟨ho.ch, ho.id1, stagedLink_of_exec (i := .chdr ch i1 i2 d) hd (decide_eq_true hlen) (by simp [Instr.opcode]) rfl h⟩
  · obtain ⟨hop, hpre, hall, hend⟩ := stagedLink_iff.mp hs
    obtain ⟨hreset, -⟩ | ⟨c, rfl⟩ | ⟨-, rfl⟩ | ⟨hidle, -⟩ | ⟨hidle, -⟩ := step_cases h
    · exact absurd hreset hr
    · generalize hs' : ({ s.consumeInput with transport := { s.transport with credit := c } } : State) = s'
      have hfreed (l : List Input) : s'.freed l = s.freed l := by rw [← hs']; rfl
      have hop' : s'.opcode ∈ [some Opcode.chtx, some .chir, some .chdr] := by rw [← hs']; exact hop
      refine stagedLink_of_settled s'.resume_settled (State.opcode_congr s'.resume_sameOperands.op ▸ hop') ?_
      rw [stagedWhole_resume hop', State.takeTransport_none, State.resume_freed_resume, hfreed, State.freed_resume_trace, hend,
        ← hs']
      rfl
    · refine stagedLink_iff.mpr ⟨hop, hpre, hall, ?_⟩
      rw [State.takeTransport_none]
      exact (s.freed_resume_trace _).trans hend
    · exact absurd (hb.symm.trans hidle) nofun
    · exact absurd (hb.symm.trans hidle) nofun

end Sys2Proof.Machine
end
